-- ==== Sys2Proof/Word.lean ====
section
/-! DEFINITION. The words of the block: bytes, nibbles and line levels (00_scope.md R9). -/

namespace Sys2Proof

/-- One byte: a shadow register, an operand, a payload byte, a command byte. -/
abbrev Byte := BitVec 8

/-- Four bits: the unit of transfer on the 4-bit bus (20_memory.md R50). -/
abbrev Nibble := BitVec 4

/-- The level of one expander line: `Low = 0`, `High = 1` (R9). -/
inductive Level where
  | low
  | high
  deriving DecidableEq, Repr

end Sys2Proof
end

