-- ==== Sys2Proof/Syntax.lean ====
section
/-! DEFINITION. The instructions: one constructor per row of spec/opcode_table.json (30_encoding.md R70, R75 to R84). -/

namespace Sys2Proof

/-- The 20 requests of R70 (first part) and the 10 emitted rows of R75 to R84 (second part, names in `lcd…`). -/
inductive Instr where
  /-- `START(cols, rows)`, R110. -/
  | start (cols rows : Byte)
  /-- `CLEAR`, R152. -/
  | clear
  /-- `HOME`, R153. -/
  | home
  /-- `SET_CURSOR(col, row)`, R151. -/
  | setCursor (col row : Byte)
  /-- `DISPLAY_ON`, R131. -/
  | displayOn
  /-- `DISPLAY_OFF`, R132. -/
  | displayOff
  /-- `CURSOR_ON`, R133. -/
  | cursorOn
  /-- `CURSOR_OFF`, R134. -/
  | cursorOff
  /-- `BLINK_ON`, R135. -/
  | blinkOn
  /-- `BLINK_OFF`, R136. -/
  | blinkOff
  /-- `SCROLL_LEFT`, R154. -/
  | scrollLeft
  /-- `SCROLL_RIGHT`, R155. -/
  | scrollRight
  /-- `LEFT_TO_RIGHT`, R137. -/
  | leftToRight
  /-- `RIGHT_TO_LEFT`, R138. -/
  | rightToLeft
  /-- `AUTOSCROLL_ON`, R139. -/
  | autoscrollOn
  /-- `AUTOSCROLL_OFF`, R140. -/
  | autoscrollOff
  /-- `CREATE_CHAR(slot, glyph[0..7])`, R160. -/
  | createChar (slot : Byte) (glyph : List Byte)
  /-- `SET_BACKLIGHT(colorCode)`, R161. -/
  | setBacklight (colorCode : Byte)
  /-- `PRINT(n, text[0..n-1])`, R170; n is the length of the text. -/
  | print (text : List Byte)
  /-- `READ_BUTTONS`, R180. -/
  | readButtons
  /-- `LCD.CLEARDISPLAY`, R75. -/
  | lcdClearDisplay
  /-- `LCD.RETURNHOME`, R76. -/
  | lcdReturnHome
  /-- `LCD.ENTRYMODESET` with its fields ID (bit 1) and S (bit 0), R77. -/
  | lcdEntryModeSet (idBit sBit : Bool)
  /-- `LCD.DISPLAYCONTROL` with its fields D (bit 2), C (bit 1) and B (bit 0), R78. -/
  | lcdDisplayControl (dBit cBit bBit : Bool)
  /-- `LCD.CURSORSHIFT` with its fields SC (bit 3) and RL (bit 2), R79. -/
  | lcdCursorShift (scBit rlBit : Bool)
  /-- `LCD.FUNCTIONSET` with its fields DL (bit 4), N (bit 3) and F (bit 2), R80. -/
  | lcdFunctionSet (dlBit nBit fBit : Bool)
  /-- `LCD.SETCGRAMADDR` with its 6-bit address, R81. -/
  | lcdSetCgramAddr (addr : BitVec 6)
  /-- `LCD.SETDDRAMADDR` with its 7-bit address, R82. -/
  | lcdSetDdramAddr (addr : BitVec 7)
  /-- `LCD.DATA`: a data byte, sent with RS High, R83. -/
  | lcdData (value : Byte)
  /-- `LCD.INITNIBBLE`: the nibble 0x3 (`n` true) or 0x2 (`n` false), sent alone, R84. -/
  | lcdInitNibble (n : Bool)
  deriving DecidableEq, Repr

/-- Whether the instruction is one of the 20 operation requests (R70); the others are emitted rows, which no request can ask for (R91). -/
def Instr.isRequest : Instr → Bool
  | .start _ _ => true
  | .clear => true
  | .home => true
  | .setCursor _ _ => true
  | .displayOn => true
  | .displayOff => true
  | .cursorOn => true
  | .cursorOff => true
  | .blinkOn => true
  | .blinkOff => true
  | .scrollLeft => true
  | .scrollRight => true
  | .leftToRight => true
  | .rightToLeft => true
  | .autoscrollOn => true
  | .autoscrollOff => true
  | .createChar _ _ => true
  | .setBacklight _ => true
  | .print _ => true
  | .readButtons => true
  | .lcdClearDisplay => false
  | .lcdReturnHome => false
  | .lcdEntryModeSet _ _ => false
  | .lcdDisplayControl _ _ _ => false
  | .lcdCursorShift _ _ => false
  | .lcdFunctionSet _ _ _ => false
  | .lcdSetCgramAddr _ => false
  | .lcdSetDdramAddr _ => false
  | .lcdData _ => false
  | .lcdInitNibble _ => false

/-- What the bus multiplexer is handed: a command byte (RS Low), a data byte (RS High), or a single nibble sent by
`write4` alone (40_bus_timing.md R101, R104, R105; 30_encoding.md R84). -/
inductive BusUnit where
  | command (value : Byte)
  | data (value : Byte)
  | nibble (value : Nibble)
  deriving DecidableEq, Repr

end Sys2Proof
end

