-- ==== Sys2Proof/WellFormed.lean ====
section
/-! DEFINITION. Well-formed instructions: what a request can carry (30_encoding.md R72, R89). -/

namespace Sys2Proof

/-- A glyph has exactly 8 rows and a text at most 255 bytes (R72: formats P8 and PN); every other operand is well formed at every value its
type has. START's geometry is no matter of form: a bad one is refused when the request runs (R74). -/
def Instr.wellFormed : Instr → Bool
  | .start _ _ => true
  | .clear => true
  | .home => true
  | .setCursor _ _ => true
  | .displayOn => true
  | .displayOff => true
  | .cursorOn => true
  | .cursorOff => true
  | .blinkOn => true
  | .blinkOff => true
  | .scrollLeft => true
  | .scrollRight => true
  | .leftToRight => true
  | .rightToLeft => true
  | .autoscrollOn => true
  | .autoscrollOff => true
  | .createChar _ glyph => glyph.length == 8
  | .setBacklight _ => true
  | .print text => decide (text.length ≤ 255)
  | .readButtons => true
  | .lcdClearDisplay => true
  | .lcdReturnHome => true
  | .lcdEntryModeSet _ _ => true
  | .lcdDisplayControl _ _ _ => true
  | .lcdCursorShift _ _ => true
  | .lcdFunctionSet _ _ _ => true
  | .lcdSetCgramAddr _ => true
  | .lcdSetDdramAddr _ => true
  | .lcdData _ => true
  | .lcdInitNibble _ => true

end Sys2Proof
end

