-- ==== Sys2Proof/Decode.lean ====
section
/-! DEFINITION. Decoding of requests and of emitted units, then the encoders (30_encoding.md R70 to R74, R75 to R84, R89). -/

namespace Sys2Proof

/-- Why the decoder gives no instruction. -/
inductive DecodeError where
  /-- Opcodes 0x14..0xFF are reserved (R74). -/
  | reservedOpcode (op : Byte)
  /-- The header or the payload has not arrived in full (R89 gives the length). -/
  | incomplete
  /-- A command byte that is none of the eight command rows (R75 to R82, R86). -/
  | noCommandRow (value : Byte)
  /-- A single nibble other than 0x3 and 0x2 (R84). -/
  | noNibbleRow (value : Nibble)
  deriving DecidableEq, Repr

/-- R89: the payload's length in bytes is a function of the header alone: 8 for `op = 0x10`, `a` for `op = 0x12`, 0 otherwise. -/
def payloadLength (op a : Byte) : Nat :=
  if op = 0x10#8 then 8 else if op = 0x12#8 then a.toNat else 0

/-- R70, R72: the operation of a header and its payload; none for the reserved opcodes. Fields a format does not use are ignored. -/
def requestOf (op a b : Byte) (payload : List Byte) : Option Instr :=
  match op.toNat with
  | 0x00 => some (.start a b)
  | 0x01 => some .clear
  | 0x02 => some .home
  | 0x03 => some (.setCursor a b)
  | 0x04 => some .displayOn
  | 0x05 => some .displayOff
  | 0x06 => some .cursorOn
  | 0x07 => some .cursorOff
  | 0x08 => some .blinkOn
  | 0x09 => some .blinkOff
  | 0x0A => some .scrollLeft
  | 0x0B => some .scrollRight
  | 0x0C => some .leftToRight
  | 0x0D => some .rightToLeft
  | 0x0E => some .autoscrollOn
  | 0x0F => some .autoscrollOff
  | 0x10 => some (.createChar a payload)
  | 0x11 => some (.setBacklight a)
  | 0x12 => some (.print payload)
  | 0x13 => some .readButtons
  | _ => none

/-- R71, R89: reads one request from the front of the port's bytes (op, a, b, then the payload) and gives the rest. -/
def decodeRequest : List Byte → Except DecodeError (Instr × List Byte)
  | op :: a :: b :: rest =>
    match requestOf op a b (rest.take (payloadLength op a)) with
    | none => .error (.reservedOpcode op)
    | some i =>
      if rest.length < payloadLength op a then .error .incomplete
      else .ok (i, rest.drop (payloadLength op a))
  | _ => .error .incomplete

/-- One command row of spec/opcode_table.json: a byte belongs to it when its bits under the mask are the pattern. -/
structure CommandRow where
  mask : Byte
  pattern : Byte
  build : Byte → Instr

/-- The eight command rows (R75 to R82), with the fields each pulls out of its byte. -/
def commandRows : List CommandRow :=
  [ ⟨0xFF#8, 0x01#8, fun _ => .lcdClearDisplay⟩,
    ⟨0xFF#8, 0x02#8, fun _ => .lcdReturnHome⟩,
    ⟨0xFC#8, 0x04#8, fun v => .lcdEntryModeSet (v.getLsbD 1) (v.getLsbD 0)⟩,
    ⟨0xF8#8, 0x08#8, fun v => .lcdDisplayControl (v.getLsbD 2) (v.getLsbD 1) (v.getLsbD 0)⟩,
    ⟨0xF3#8, 0x10#8, fun v => .lcdCursorShift (v.getLsbD 3) (v.getLsbD 2)⟩,
    ⟨0xE3#8, 0x20#8, fun v => .lcdFunctionSet (v.getLsbD 4) (v.getLsbD 3) (v.getLsbD 2)⟩,
    ⟨0xC0#8, 0x40#8, fun v => .lcdSetCgramAddr (v.setWidth 6)⟩,
    ⟨0x80#8, 0x80#8, fun v => .lcdSetDdramAddr (v.setWidth 7)⟩ ]

/-- The emitted row a bus unit is: a command byte by its bits, a data byte by RS alone (R83), a single nibble 001n (R84). -/
def decodeUnit : BusUnit → Except DecodeError Instr
  | .command v =>
    match commandRows.find? (fun r => v &&& r.mask == r.pattern) with
    | some r => .ok (r.build v)
    | none => .error (.noCommandRow v)
  | .data v => .ok (.lcdData v)
  | .nibble n => if n &&& 0xE#4 = 0x2#4 then .ok (.lcdInitNibble (n.getLsbD 0)) else .error (.noNibbleRow n)

/-- What an instruction is written as: the bytes of a request, or the unit an emitted row puts on the bus. -/
inductive Encoded where
  | request (bytes : List Byte)
  | unit (u : BusUnit)
  deriving DecidableEq, Repr

/-- One bit as a word of width 1, for the bit patterns below. -/
def bit1 (b : Bool) : BitVec 1 := BitVec.ofBool b

/-- The encoder, written from R70 to R72 (requests: the header op, a, b with ignored fields zero, then the payload) and from the bit patterns of R75
to R84 (emitted rows). -/
def encode : Instr → Encoded
  | .start cols rows => .request [0x00#8, cols, rows]
  | .clear => .request [0x01#8, 0#8, 0#8]
  | .home => .request [0x02#8, 0#8, 0#8]
  | .setCursor col row => .request [0x03#8, col, row]
  | .displayOn => .request [0x04#8, 0#8, 0#8]
  | .displayOff => .request [0x05#8, 0#8, 0#8]
  | .cursorOn => .request [0x06#8, 0#8, 0#8]
  | .cursorOff => .request [0x07#8, 0#8, 0#8]
  | .blinkOn => .request [0x08#8, 0#8, 0#8]
  | .blinkOff => .request [0x09#8, 0#8, 0#8]
  | .scrollLeft => .request [0x0A#8, 0#8, 0#8]
  | .scrollRight => .request [0x0B#8, 0#8, 0#8]
  | .leftToRight => .request [0x0C#8, 0#8, 0#8]
  | .rightToLeft => .request [0x0D#8, 0#8, 0#8]
  | .autoscrollOn => .request [0x0E#8, 0#8, 0#8]
  | .autoscrollOff => .request [0x0F#8, 0#8, 0#8]
  | .createChar slot glyph => .request (0x10#8 :: slot :: 0#8 :: glyph)
  | .setBacklight colorCode => .request [0x11#8, colorCode, 0#8]
  | .print text => .request (0x12#8 :: BitVec.ofNat 8 text.length :: 0#8 :: text)
  | .readButtons => .request [0x13#8, 0#8, 0#8]
  | .lcdClearDisplay => .unit (.command 0b00000001#8)
  | .lcdReturnHome => .unit (.command 0b00000010#8)
  | .lcdEntryModeSet i s => .unit (.command (0b000001#6 ++ bit1 i ++ bit1 s))
  | .lcdDisplayControl d c b => .unit (.command (0b00001#5 ++ bit1 d ++ bit1 c ++ bit1 b))
  | .lcdCursorShift sc rl => .unit (.command (0b0001#4 ++ bit1 sc ++ bit1 rl ++ 0b00#2))
  | .lcdFunctionSet dl n f => .unit (.command (0b001#3 ++ bit1 dl ++ bit1 n ++ bit1 f ++ 0b00#2))
  | .lcdSetCgramAddr addr => .unit (.command (0b01#2 ++ addr))
  | .lcdSetDdramAddr addr => .unit (.command (0b1#1 ++ addr))
  | .lcdData v => .unit (.data v)
  | .lcdInitNibble n => .unit (.nibble (0b001#3 ++ bit1 n))

/-- The bytes of a 24-bit header as the port carries them: bits 23:16 (`op`) first, then 15:8 (`a`), then 7:0 (`b`) (R71). -/
def headerBytes (w : Nat) : List Byte :=
  [BitVec.ofNat 8 (w >>> 16), BitVec.ofNat 8 (w >>> 8), BitVec.ofNat 8 w]

/-- A request's header followed by the payload its length asks for, every payload byte zero. -/
def requestBytes (w : Nat) : List Byte :=
  headerBytes w ++ List.replicate (payloadLength (BitVec.ofNat 8 (w >>> 16)) (BitVec.ofNat 8 (w >>> 8))) 0#8

/-- DESIGN CHOICE (log 10). The bus unit an 8-bit table word stands for: a command byte where a command row takes it, else the initialization
nibble 0x3, else a data byte. The table gives data bytes no bits of their own (R83: told apart by RS), so a word alone does not always say. -/
def unitOfByte (v : Byte) : BusUnit :=
  match decodeUnit (.command v) with
  | .ok _ => .command v
  | .error _ => if v = 0x03#8 then .nibble 0x3#4 else .data v

/-- The encoded form of a table word: 24 bits a request, 8 bits an emitted byte, fewer than 8 an initialization nibble. -/
def tableWord (nbits w : Nat) : Option Encoded :=
  if nbits = 24 then some (.request (requestBytes w))
  else if nbits = 8 then some (.unit (unitOfByte (BitVec.ofNat 8 w)))
  else if nbits < 8 then some (.unit (.nibble (BitVec.ofNat 4 w)))
  else none

/-- The decoder over both forms; a request must be used up whole or leave the bytes after it. -/
def decode : Encoded → Except DecodeError Instr
  | .request bytes => (decodeRequest bytes).map (·.1)
  | .unit u => decodeUnit u

/-- The instruction the decoder reads from a word of spec/opcode_table.json (fixed by the host). -/
def decodeTableWord (nbits w : Nat) : Option Instr :=
  match tableWord nbits w with
  | some e => (decode e).toOption
  | none => none

end Sys2Proof
end

