-- ==== Sys2Proof/Config.lean ====
section
/-! DEFINITION. What an implementation fixes (00_scope.md R6, R8) and the free values: constants with no body. -/

namespace Sys2Proof

/-- `BUS_WIDTH`: 4 or 8 (R6). -/
inductive BusWidth where
  | four
  | eight
  deriving DecidableEq, Repr

/-- The build-time options of the block (R2, R6). The value this hardware takes is `Machine.hardware`. -/
structure Variant where
  /-- `BUS_WIDTH`. -/
  busWidth : BusWidth
  /-- `HAS_RW`. -/
  hasRw : Bool
  /-- `CLEAR_SYNCS_CURSOR`. -/
  clearSyncsCursor : Bool
  deriving DecidableEq, Repr

namespace Config

/-- FREE VALUE (log 14). The pin map (R30, R53): which expander line each of the 15 pins has. A permutation of the 16 lines, so that distinct pins have
distinct lines and one line is left over, whatever it is. -/
opaque pinMap : Equiv.Perm (Fin 16)

/-- FREE VALUE (log 15). The bit position of each button's mask (R88): a permutation of the low five bits, so that the five masks are distinct and one-hot,
whatever they are. -/
opaque maskMap : Equiv.Perm (Fin 5)

/-- FREE VALUE (log 3). Whether the adapter answers Ok to `open` or `setPinMode` when State lists no answer (R41, R42). -/
opaque freeAdapterOk : Nat → Bool

/-- FREE VALUE (log 4). Whether a line reads High when State lists no level (R45). -/
opaque freeLineHigh : Nat → Bool

/-- FREE VALUE (log 21). An entry of the row-offset table past row 3, which no rule defines and no started block reaches (R60). -/
opaque freeRowOffset : Nat → Byte

/-- FREE VALUE (log 16). By how many nanoseconds `T_SYNC1` exceeds 4.1 ms (R6). -/
opaque extraSync1 : Nat

/-- FREE VALUE (log 16). By how many nanoseconds `T_SYNC2` exceeds 4.1 ms (R6). -/
opaque extraSync2 : Nat

/-- FREE VALUE (log 16). By how many nanoseconds `T_SYNC3` exceeds 100 µs (R6). -/
opaque extraSync3 : Nat

/-- FREE VALUE (log 16). By how many nanoseconds `T_EN_HIGH` exceeds 450 ns (R6). -/
opaque extraEnHigh : Nat

/-- FREE VALUE (log 16). By how many nanoseconds `T_SETTLE` exceeds 37 µs (R6). -/
opaque extraSettle : Nat

/-- `I2C_ADDR`: a construction parameter of the adapter, default 0x20; no rule reads it (R8). DESIGN CHOICE (log 32): R8 gives no width and calls 0x20 a
default; the model takes a 7-bit word fixed at that default. -/
def i2cAddr : BitVec 7 := 0x20#7

/-- FREE VALUE (log 32). `BUS_ID`: the other construction parameter of the adapter, open in the spec; no rule reads it (R8). DESIGN CHOICE: R8 gives it no type;
the model takes a natural number. -/
opaque busId : Nat

end Config

end Sys2Proof
end

