-- ==== Sys2Proof/Machine/State.lean ====
section
/-! DEFINITION. The state of the block as plain data (10_state.md R20), its ports, and what a step can end in. -/

namespace Sys2Proof.Machine

/-- The life-cycle register `phase` (R21). -/
inductive Phase where
  | uninit
  | ready
  | fault
  deriving DecidableEq, Repr

/-- The pins by name (00_scope.md R6). `d0` to `d3` exist only when `BUS_WIDTH = 8`, which this hardware is not (R7). -/
inductive Pin where
  | rs
  | rw
  | en
  | d0
  | d1
  | d2
  | d3
  | d4
  | d5
  | d6
  | d7
  | bl0
  | bl1
  | bl2
  | btnUp
  | btnDown
  | btnLeft
  | btnRight
  | btnSelect
  deriving DecidableEq, Repr

/-- The direction of a line (R9). -/
inductive Direction where
  | input
  | output
  deriving DecidableEq, Repr

/-- The named durations (R6). -/
inductive Timer where
  | powerOn
  | sync1
  | sync2
  | sync3
  | clear
  | enHigh
  | settle
  deriving DecidableEq, Repr

/-- One event of the trace (00_scope.md R10, 20_memory.md R47): an adapter call or a wait. -/
inductive Event where
  /-- `Open`. -/
  | adapterOpen
  /-- `Mode(p,d)`. -/
  | mode (p : Pin) (d : Direction)
  /-- `Pull(p,e)`. -/
  | pull (p : Pin) (enabled : Bool)
  /-- `W(p,l)`. -/
  | write (p : Pin) (l : Level)
  /-- `R(p)->l`. -/
  | read (p : Pin) (l : Level)
  /-- `Wait(t)`. -/
  | wait (t : Timer)
  deriving DecidableEq, Repr

/-- What is returned to the requester (30_encoding.md R73). -/
inductive Response where
  | done
  | doneMask (mask : BitVec 5)
  | fault (code : BitVec 2)
  deriving DecidableEq, Repr

/-- What the adapter answers to `open` and `setPinMode` (R41, R42). -/
inductive AdapterAnswer where
  | ok
  | ioError
  deriving DecidableEq, Repr

/-- The one interruption the environment has scheduled (log 12). -/
inductive Interruption where
  /-- The reset input is asserted after this many further events (R210, R216). -/
  | resetAfter (events : Nat)
  /-- After this many further adapter calls have returned, the next one never returns (R46, U14). -/
  | hangAfter (calls : Nat)
  deriving DecidableEq, Repr

/-- The named states of the initialization walk (R121). -/
inductive InitState where
  | config
  | powerWait
  | ctrlLow
  | sync1
  | sync2
  | sync3
  | set4
  | funcSet
  | display
  | clear
  | entry
  | addr0
  deriving DecidableEq, Repr

/-- Why the machine stops with a fault. -/
inductive Fault where
  /-- Raised by `step` (through `Machine.interrupted`) when the environment has scheduled that an adapter call of the running operation never returns: the block is
  stuck in mid-operation (R46, U14). Safe: a stuck run proves nothing. -/
  | adapterHang
  deriving DecidableEq, Repr

/-- Why a step gives no meaning. All are safe: nothing is claimed of what follows. -/
inductive Refusal where
  /-- Raised by `exec` for an instruction that has no meaning yet (none is left). Safe. -/
  | notModelled (mnemonic : String)
  /-- Raised by `step`: opcodes 0x14..0xFF are reserved (R74). Safe. -/
  | reservedOpcode (op : Byte)
  /-- Raised by every request but START while `phase = UNINIT` (R74). Safe. -/
  | notStarted
  /-- Raised by START while `phase = READY` (R74, R122). Safe. -/
  | alreadyStarted
  /-- Raised by every request, and by every emitted row the sequencer holds, while `phase = FAULT` (R74, R196; log 9). Safe. -/
  | inFault
  /-- Raised by START with `cols = 0` or `rows` not in 1, 2, 4 (R74, D26). Safe. -/
  | badGeometry
  /-- Raised by `step`: the sequencer's unit is no row the block can emit (R84, R86). Safe. -/
  | noEmittedRow (u : BusUnit)
  deriving DecidableEq, Repr

/-- The whole state: the nine registers of R20, the sequencer's unit (R31), what is observed (R47), and the inputs that wait to be read. -/
structure State where
  /-- `phase` (R21). -/
  phase : Phase
  /-- `fault_code` (R22). -/
  faultCode : BitVec 2
  /-- `columns` of DisplayGeometry (R23). -/
  columns : Byte
  /-- `rows` of DisplayGeometry (R23). -/
  rows : Byte
  /-- `cur_line` of CursorState (R24). -/
  curLine : Byte
  /-- `cur_col` of CursorState, -1..255 in every started block (R24, R37). -/
  curCol : Int
  /-- `fs`, the FunctionSet shadow (R25). -/
  fs : Byte
  /-- `dc`, the DisplayControl shadow (R26). -/
  dc : Byte
  /-- `em`, the EntryMode shadow (R27). -/
  em : Byte
  /-- The micro-step (R31): a bus unit the sequencer emits as a step of its own (log 9); none between operations. -/
  microStep : Option BusUnit
  /-- The event trace since power-on, oldest first (R47). -/
  trace : List Event
  /-- The responses returned, oldest first (R73). -/
  responses : List Response
  /-- The bytes waiting on the request port (R71). -/
  requests : List Byte
  /-- The answers the adapter will give to `open` and `setPinMode`, in order (R41, R42). -/
  adapterAnswers : List AdapterAnswer
  /-- The levels `digitalRead` will return, in order (R45). -/
  lineLevels : List Level
  /-- The model's own counter of free values drawn (log 5). -/
  draws : Nat
  /-- The interruption the environment has scheduled, if any (log 12). -/
  interruption : Option Interruption
  deriving DecidableEq, Repr

/-- Right after power-on reset (R36, R210): `phase = UNINIT`, `fault_code = 0`, no event. The seven other registers have no value in the spec: DESIGN CHOICE
zero, unsafe (log 1). Nothing waits on the ports (log 3, 4, 7, 12, 26). -/
def State.reset : State where
  phase := .uninit
  faultCode := 0#2
  columns := 0#8
  rows := 0#8
  curLine := 0#8
  curCol := 0
  fs := 0#8
  dc := 0#8
  em := 0#8
  microStep := none
  trace := []
  responses := []
  requests := []
  adapterAnswers := []
  lineLevels := []
  draws := 0
  interruption := none

end Sys2Proof.Machine
end

