-- ==== Sys2Proof/Machine/Operands.lean ====
section
/-! DEFINITION. Operands and constants: how every emitted value is assembled (30_encoding.md R85), the pin map, the masks, the durations (00_scope.md R6). -/

namespace Sys2Proof.Machine

/-- The options of this hardware (R2): `BUS_WIDTH = 4`, `HAS_RW = true`, `CLEAR_SYNCS_CURSOR = true` (the spec's decisions D5, D6, D16; log 17, log 20). -/
def hardware : Variant := { busWidth := .four, hasRw := true, clearSyncsCursor := true }

/-- A bit as a level: 0 is Low, 1 is High (R9). -/
def levelOf (b : Bool) : Level := if b then .high else .low

/-- A level as a bit (R9). -/
def bitOf (l : Level) : Bool := decide (l = .high)

/-- `v[7:4]` (R50, R85). -/
def highNibble (v : Byte) : Nibble := v.extractLsb' 4 4

/-- `v[3:0]` (R50, R85). -/
def lowNibble (v : Byte) : Nibble := v.extractLsb' 0 4

/-- The DDRAM row table (R60): row 0 at 0x00, 1 at 0x40, 2 at 0x14, 3 at 0x54. A row past 3 has no entry: a free value no started block reads (log 21). -/
def rowOffset (r : Byte) : Byte :=
  match r.toNat with
  | 0 => 0x00#8
  | 1 => 0x40#8
  | 2 => 0x14#8
  | 3 => 0x54#8
  | n => Config.freeRowOffset n

/-- The clamp of R150: `(r >= rows) ? rows - 1 : r`. -/
def clampRow (rows r : Byte) : Byte := if rows ≤ r then rows - 1#8 else r

/-- `0x80 | ((ROW_OFFSET[r'] + c) mod 256)` (R82, R85, R150): the sum is cut to 8 bits, then the selector bit is set over it. -/
def ddramByte (rows c r : Byte) : Byte := 0x80#8 ||| (rowOffset (clampRow rows r) + c)

/-- `0x40 | ((slot & 7) << 3)` (R61, R81, R85). -/
def cgramByte (slot : Byte) : Byte := 0x40#8 ||| ((slot &&& 0x07#8) <<< 3)

/-- `0x01` (R75). -/
def clearByte : Byte := 0x01#8

/-- `0x02` (R76). -/
def homeByte : Byte := 0x02#8

/-- `0x04 | em` (R77). -/
def entryModeByte (em : Byte) : Byte := 0x04#8 ||| em

/-- `0x08 | dc` (R78). -/
def displayControlByte (dc : Byte) : Byte := 0x08#8 ||| dc

/-- `0x10 | SC<<3 | RL<<2` (R79). -/
def cursorShiftByte (sc rl : Bool) : Byte := 0x10#8 ||| ((if sc then 0x08#8 else 0#8) ||| (if rl then 0x04#8 else 0#8))

/-- `0x20 | fs` (R80). -/
def functionSetByte (fs : Byte) : Byte := 0x20#8 ||| fs

/-- The single nibble of R84: 0x3 to synchronise, 0x2 to commit to 4-bit mode. -/
def initNibble (sync : Bool) : Nibble := if sync then 0x3#4 else 0x2#4

/-- The level of backlight line i: `~(a >> i) & 1` (R85, R87). -/
def backlightLevel (colorCode : Byte) (i : Nat) : Level := levelOf (!colorCode.getLsbD i)

/-- The newline character, byte 0x0A (R170). -/
def newline : Byte := 0x0A#8

/-- The ten output lines of the 4-bit configuration in prologue order; `HAS_RW` and `BUS_WIDTH` add or drop lines (R111). -/
def outputPins (hw : Variant) : List Pin :=
  [.rs] ++ (if hw.hasRw then [.rw] else []) ++ [.en]
    ++ (match hw.busWidth with
        | .four => []
        | .eight => [.d0, .d1, .d2, .d3])
    ++ [.d4, .d5, .d6, .d7, .bl0, .bl1, .bl2]

/-- The five button lines in the order UP, DOWN, LEFT, RIGHT, SELECT (R111, R180). -/
def buttonPins : List Pin := [.btnUp, .btnDown, .btnLeft, .btnRight, .btnSelect]

/-- A pin's place in the pin map; `d0` to `d3` have none in this hardware (R6, R7). -/
def Pin.ordinal : Pin → Option (Fin 16)
  | .rs => some 0
  | .rw => some 1
  | .en => some 2
  | .d0 => none
  | .d1 => none
  | .d2 => none
  | .d3 => none
  | .d4 => some 3
  | .d5 => some 4
  | .d6 => some 5
  | .d7 => some 6
  | .bl0 => some 7
  | .bl1 => some 8
  | .bl2 => some 9
  | .btnUp => some 10
  | .btnDown => some 11
  | .btnLeft => some 12
  | .btnRight => some 13
  | .btnSelect => some 14

/-- The `PIN_*` constants (R6, R53): the expander line, 0..15, of a pin that exists. The numbers are open (log 14). -/
def Pin.line (p : Pin) : Option (Fin 16) := p.ordinal.map Config.pinMap

/-- A button's place in the mask map. -/
def Pin.buttonOrdinal : Pin → Option (Fin 5)
  | .rs => none
  | .rw => none
  | .en => none
  | .d0 => none
  | .d1 => none
  | .d2 => none
  | .d3 => none
  | .d4 => none
  | .d5 => none
  | .d6 => none
  | .d7 => none
  | .bl0 => none
  | .bl1 => none
  | .bl2 => none
  | .btnUp => some 0
  | .btnDown => some 1
  | .btnLeft => some 2
  | .btnRight => some 3
  | .btnSelect => some 4

/-- The `MASK_*` constants (R6, R88): one-hot in the low five bits, the bit position open (log 15); no bit for a pin that is no button. -/
def Pin.mask (p : Pin) : BitVec 5 :=
  match p.buttonOrdinal with
  | some k => 1#5 <<< (Config.maskMap k).val
  | none => 0#5

/-- The durations the block requests, in nanoseconds (R6): 50 ms and 2 ms are fixed; the others are at least the minimum, by an open amount (log 16). -/
@[irreducible] def Timer.nanoseconds : Timer → Nat
  | .powerOn => 50000000
  | .sync1 => 4100000 + Config.extraSync1
  | .sync2 => 4100000 + Config.extraSync2
  | .sync3 => 100000 + Config.extraSync3
  | .clear => 2000000
  | .enHigh => 450 + Config.extraEnHigh
  | .settle => 37000 + Config.extraSettle

end Sys2Proof.Machine
end

