-- ==== Sys2Proof/Machine/Flags.lean ====
section
/-! DEFINITION. The flag bits of the three shadow registers and how they are set, cleared and packed (10_state.md R25 to R29, 42_flag_toggles.md R130). -/

namespace Sys2Proof.Machine

/-- "set" of R130: `sh | bit` at 8 bits. -/
def setFlag (shadow bit : Byte) : Byte := shadow ||| bit

/-- "clear" of R130: `sh & ~bit` at 8 bits. -/
def clearFlag (shadow bit : Byte) : Byte := shadow &&& ~~~bit

/-- `dc.D`, bit 2: display on (R26). -/
def flagD : Byte := 0x04#8

/-- `dc.C`, bit 1: cursor on (R26). -/
def flagC : Byte := 0x02#8

/-- `dc.B`, bit 0: blink on (R26). -/
def flagB : Byte := 0x01#8

/-- `em.ID`, bit 1: left-to-right (R27). -/
def flagID : Byte := 0x02#8

/-- `em.S`, bit 0: autoscroll (R27). -/
def flagS : Byte := 0x01#8

/-- A field bit at its place, or nothing. -/
def flagIf (b : Bool) (bit : Byte) : Byte := if b then bit else 0#8

/-- The display-control flags from their three bits (R26, R78). -/
def packDisplay (d c b : Bool) : Byte := flagIf d flagD ||| flagIf c flagC ||| flagIf b flagB

/-- The entry-mode flags from their two bits (R27, R77). -/
def packEntry (i s : Bool) : Byte := flagIf i flagID ||| flagIf s flagS

/-- The function-set flags from their three bits: DL bit 4, N bit 3, F bit 2 (R25, R80). -/
def packFunction (dl n f : Bool) : Byte := flagIf dl 0x10#8 ||| flagIf n 0x08#8 ||| flagIf f 0x04#8

/-- `fs` as START computes it (R110, R116): DL from the bus width, N iff `rows >= 2`, F = 0. -/
def functionShadow (hw : Variant) (rows : Byte) : Byte :=
  packFunction (decide (hw.busWidth = .eight)) (decide (2#8 ≤ rows)) false

/-- `dc` after START step 5: display on, no cursor, no blink (R117). -/
def startDisplay : Byte := 0x04#8

/-- `em` after START step 7: left-to-right, no autoscroll (R119). -/
def startEntry : Byte := 0x02#8

/-- TextDirection is a view of `em[1]` (R29): whether text flows left to right. -/
def leftToRight (em : Byte) : Bool := em.getLsbD 1

end Sys2Proof.Machine
end

