-- ==== Sys2Proof/Machine/Bus.lean ====
section
/-! DEFINITION. The bus timing primitives as event lists (40_bus_timing.md R100 to R105), START's prologue and synchronisation (41_init_start.md R111, R114, R115). -/

namespace Sys2Proof.Machine

/-- `pulse()` (R100). -/
def pulse : List Event :=
  [.write .en .low, .write .en .high, .wait .enHigh, .write .en .low, .wait .settle]

/-- `write4(n)` (R101): D4, D5, D6, D7, then the pulse. -/
def write4 (n : Nibble) : List Event :=
  [ .write .d4 (levelOf (n.getLsbD 0)), .write .d5 (levelOf (n.getLsbD 1)),
    .write .d6 (levelOf (n.getLsbD 2)), .write .d7 (levelOf (n.getLsbD 3)) ] ++ pulse

/-- `write8(v)` (R103): D0 to D7, then the pulse. Exists only when `BUS_WIDTH = 8` (log 17). -/
def write8 (v : Byte) : List Event :=
  [ .write .d0 (levelOf (v.getLsbD 0)), .write .d1 (levelOf (v.getLsbD 1)),
    .write .d2 (levelOf (v.getLsbD 2)), .write .d3 (levelOf (v.getLsbD 3)),
    .write .d4 (levelOf (v.getLsbD 4)), .write .d5 (levelOf (v.getLsbD 5)),
    .write .d6 (levelOf (v.getLsbD 6)), .write .d7 (levelOf (v.getLsbD 7)) ] ++ pulse

/-- `send(v, isData)` (R104) for any variant: RS, then R/W if wired, then the byte. -/
def sendOn (hw : Variant) (v : Byte) (isData : Bool) : List Event :=
  [.write .rs (levelOf isData)] ++ (if hw.hasRw then [.write .rw .low] else [])
    ++ (match hw.busWidth with
        | .four => write4 (highNibble v) ++ write4 (lowNibble v)
        | .eight => write8 v)

/-- `send(v, isData)` in this hardware. -/
def send (v : Byte) (isData : Bool) : List Event := sendOn hardware v isData

/-- `command(v)` (R105): RS Low. -/
def command (v : Byte) : List Event := send v false

/-- `data(v)` (R105): RS High. -/
def data (v : Byte) : List Event := send v true

/-- The prologue's calls in order (R111): open, the output lines, then each button line as input with its pull-up. -/
def prologue (hw : Variant) : List Event :=
  [.adapterOpen] ++ (outputPins hw).map (fun p => .mode p .output)
    ++ buttonPins.flatMap (fun p => [.mode p .input, .pull p true])

/-- Step 2 (R113): RS, EN, then R/W if wired, driven Low. -/
def controlLow (hw : Variant) : List Event :=
  [.write .rs .low, .write .en .low] ++ (if hw.hasRw then [.write .rw .low] else [])

/-- Step 3: the 4-bit synchronisation (R114), or its 8-bit variant (R115). -/
def synchronise (hw : Variant) (fs : Byte) : List Event :=
  match hw.busWidth with
  | .four =>
    write4 (initNibble true) ++ [.wait .sync1] ++ write4 (initNibble true) ++ [.wait .sync2]
      ++ write4 (initNibble true) ++ [.wait .sync3] ++ write4 (initNibble false)
  | .eight =>
    sendOn hw (functionSetByte fs) false ++ [.wait .sync1] ++ sendOn hw (functionSetByte fs) false ++ [.wait .sync2]
      ++ sendOn hw (functionSetByte fs) false ++ [.wait .sync3]

/-- The clear command and the wait it must be followed by (R75, R118, R152). -/
def clearTransfer : List Event := command clearByte ++ [.wait .clear]

/-- The home command and the wait that follows it (R76, R153). -/
def homeTransfer : List Event := command homeByte ++ [.wait .clear]

/-- The backlight's three pin writes, BL0, BL1, BL2 (R161). -/
def backlightWrites (colorCode : Byte) : List Event :=
  [ .write .bl0 (backlightLevel colorCode 0), .write .bl1 (backlightLevel colorCode 1),
    .write .bl2 (backlightLevel colorCode 2) ]

/-- Whether an event can fail: `Open` and `Mode(p,d)` only (R192). -/
def Event.canFail : Event → Bool
  | .adapterOpen => true
  | .mode _ _ => true
  | .pull _ _ => false
  | .write _ _ => false
  | .read _ _ => false
  | .wait _ => false

/-- Whether an event is an adapter call; a wait is not (R47). -/
def Event.isCall : Event → Bool
  | .adapterOpen => true
  | .mode _ _ => true
  | .pull _ _ => true
  | .write _ _ => true
  | .read _ _ => true
  | .wait _ => false

end Sys2Proof.Machine
end

