-- ==== Sys2Proof/Machine/Ops.lean ====
section
/-! DEFINITION. The shared operations over the state: emitting events, sending bytes, `set_cursor`, the environment's answers, the precondition of an
operation, taking an exception and leaving it by reset, fetching, and an interruption in mid-operation. -/

namespace Sys2Proof.Machine

/-- Appends events to the trace (R10, R47). -/
def State.emit (evs : List Event) (s : State) : State := { s with trace := s.trace ++ evs }

/-- Returns a response to the requester (R73). -/
def State.respond (r : Response) (s : State) : State := { s with responses := s.responses ++ [r] }

/-- `command(v)` (R105). -/
def State.command (v : Byte) (s : State) : State := s.emit (Machine.command v)

/-- `data(v)` (R105). -/
def State.data (v : Byte) (s : State) : State := s.emit (Machine.data v)

/-- `cur_line <- line ; cur_col <- col`. -/
def State.moveCursor (line : Byte) (col : Int) (s : State) : State := { s with curLine := line, curCol := col }

/-- `set_cursor(c, r)` (R150): the address command of the clamped row, then CursorState takes the clamped row and the given column. -/
def State.setCursor (c r : Byte) (s : State) : State :=
  (s.command (ddramByte s.rows c r)).moveCursor (clampRow s.rows r) c.toNat

/-- CursorState after `CLEAR` and `HOME` (R152, R153): (0,0), if `CLEAR_SYNCS_CURSOR` (log 20). -/
def State.syncCursor (s : State) : State :=
  if hardware.clearSyncsCursor then s.moveCursor 0#8 0 else s

/-- The adapter's next answer to a call that can fail (R41, R42): the first listed, else a free value (log 3). -/
def State.takeAnswer (s : State) : AdapterAnswer × State :=
  match s.adapterAnswers with
  | a :: rest => (a, { s with adapterAnswers := rest })
  | [] => (if Config.freeAdapterOk s.draws then .ok else .ioError, { s with draws := s.draws + 1 })

/-- The level the next `digitalRead` returns (R45): the first listed, else a free value (log 4). -/
def State.takeLevel (s : State) : Level × State :=
  match s.lineLevels with
  | l :: rest => (l, { s with lineLevels := rest })
  | [] => (levelOf (Config.freeLineHigh s.draws), { s with draws := s.draws + 1 })

/-- `PinRead(p)` (R10, R45): one event, whose level the environment supplies. -/
def State.pinRead (p : Pin) (s : State) : Level × State :=
  (s.takeLevel.1, s.takeLevel.2.emit [.read p s.takeLevel.1])

/-- Issues calls in order; the first that answers IoError is the last issued (R122, R194). The flag says whether all answered Ok. -/
def State.issue : List Event → State → Bool × State
  | [], s => (true, s)
  | e :: rest, s =>
    if e.canFail then
      match s.takeAnswer.1 with
      | .ok => State.issue rest (s.takeAnswer.2.emit [e])
      | .ioError => (false, s.takeAnswer.2.emit [e])
    else State.issue rest (s.emit [e])

/-- TAKING THE EXCEPTION `HardwareIoError` (R190, R195): `fault_code <- 1`, `phase <- FAULT`, response `fault` with code 1, nothing else. There is no
handler and nothing is saved. -/
def State.raiseIoError (s : State) : State :=
  ({ s with phase := .fault, faultCode := 1#2 }).respond (.fault 1#2)

/-- The reset input (R210), the only exit from FAULT and from READY (R196): `phase <- UNINIT`, `fault_code <- 0`, the other registers at the values
`State.reset` has for them (log 1, log 2), the operation in progress dropped, no event. The ports' inputs stay. -/
def State.resetBlock (s : State) : State :=
  { s with
    phase := State.reset.phase
    faultCode := State.reset.faultCode
    columns := State.reset.columns
    rows := State.reset.rows
    curLine := State.reset.curLine
    curCol := State.reset.curCol
    fs := State.reset.fs
    dc := State.reset.dc
    em := State.reset.em
    microStep := none
    interruption := none }

/-- The precondition `phase = READY` of every operation but START (R74): decided before any event (R194). -/
def whenReady (s : State) (effect : State → State) : Host.Outcome State Fault Refusal :=
  match s.phase with
  | .ready => .next (effect s)
  | .uninit => .refused .notStarted
  | .fault => .refused .inFault

/-- The precondition of an emitted row as a unit of its own: any phase but FAULT, in which no event is emitted (R196). The sequencer emits such rows in UNINIT, in the
middle of START, and in READY (log 9). -/
def unlessFault (s : State) (effect : State → State) : Host.Outcome State Fault Refusal :=
  match s.phase with
  | .uninit => .next (effect s)
  | .ready => .next (effect s)
  | .fault => .refused .inFault

/-- START's geometry precondition (R74, R110): `cols > 0` and `rows` in 1, 2, 4. -/
def goodGeometry (cols rows : Byte) : Bool :=
  decide (cols ≠ 0#8) && (decide (rows = 1#8) || decide (rows = 2#8) || decide (rows = 4#8))

/-- What the sequencer does next. -/
inductive Fetched where
  /-- Run the instruction in the state left when its request or unit has been taken. -/
  | run (i : Instr) (s : State)
  /-- No whole request has arrived: the block waits (R211). -/
  | idle
  /-- No meaning. -/
  | refuse (r : Refusal)

/-- Takes the sequencer's unit if there is one, else the next request from the port, whole (R58, R198). -/
def fetch (s : State) : Fetched :=
  match s.microStep with
  | some u =>
    match decodeUnit u with
    | .ok i => .run i { s with microStep := none }
    | .error _ => .refuse (.noEmittedRow u)
  | none =>
    match decodeRequest s.requests with
    | .ok (i, rest) => .run i { s with requests := rest }
    | .error (.reservedOpcode op) => .refuse (.reservedOpcode op)
    | .error .incomplete => .idle
    | .error (.noCommandRow v) => .refuse (.noEmittedRow (.command v))
    | .error (.noNibbleRow n) => .refuse (.noEmittedRow (.nibble n))

/-- The events an operation added to the trace. -/
def newEvents (before after : State) : List Event := after.trace.drop before.trace.length

/-- The environment's answers that a list of events uses up. -/
def State.useAnswers : List Event → State → State
  | [], s => s
  | e :: rest, s =>
    if e.canFail then State.useAnswers rest s.takeAnswer.2
    else
      match e with
      | .read _ _ => State.useAnswers rest s.takeLevel.2
      | _ => State.useAnswers rest s

/-- The block reset after `k` events of an operation that would have gone from `before` to `after` and has more of them (R216): those events stand, no response, and the
block as R210 leaves it. -/
def cutShort (k : Nat) (before after : State) : State :=
  ((before.useAnswers ((newEvents before after).take k)).emit ((newEvents before after).take k)).resetBlock

/-- What the scheduled interruption makes of an operation that would go from `before` to `after` (R108, R216, R46; log 12). DESIGN CHOICE (log 12): R216 does not say
whether an operation whose last event has just been emitted when the reset is asserted still returns `done`; here it does (`k` equal to its number of events: the
operation completes with its response, and the next step is the reset). -/
def interrupted (before after : State) : Host.Outcome State Fault Refusal :=
  match before.interruption with
  | none => .next after
  | some (.resetAfter k) =>
    if k < (newEvents before after).length then .next (cutShort k before after)
    else .next { after with interruption := some (.resetAfter (k - (newEvents before after).length)) }
  | some (.hangAfter k) =>
    if k < ((newEvents before after).filter Event.isCall).length then .fault .adapterHang
    else .next { after with interruption := some (.hangAfter (k - ((newEvents before after).filter Event.isCall).length)) }

end Sys2Proof.Machine
end

