-- ==== Sys2Proof/Machine/Buttons.lean ====
section
/-! DEFINITION. READ_BUTTONS, the input reader (46_buttons.md R180, R181). -/

namespace Sys2Proof.Machine

/-- The poll of R180: one read a line, a line that reads Low adds its mask. -/
def pollButtons : List Pin → BitVec 5 → State → BitVec 5 × State
  | [], m, s => (m, s)
  | p :: rest, m, s =>
    pollButtons rest (if (s.pinRead p).1 = .low then m ||| p.mask else m) (s.pinRead p).2

/-- `READ_BUTTONS` (R180): the response carries the mask. -/
def execReadButtons (s : State) : Host.Outcome State Fault Refusal :=
  whenReady s (fun s =>
    (pollButtons buttonPins 0#5 s).2.respond (.doneMask (pollButtons buttonPins 0#5 s).1))

end Sys2Proof.Machine
end

