-- ==== Sys2Proof/Machine/Cgram.lean ====
section
/-! DEFINITION. Custom characters and the backlight (44_cgram_backlight.md R160 to R162). -/

namespace Sys2Proof.Machine

/-- The data bytes of a glyph, in index order (R160). -/
def glyphTransfer (glyph : List Byte) : List Event := glyph.flatMap Machine.data

/-- `CREATE_CHAR(slot, glyph)` (R160). -/
def execCreateChar (slot : Byte) (glyph : List Byte) (s : State) : Host.Outcome State Fault Refusal :=
  whenReady s (fun s =>
    (((s.command (cgramByte slot)).emit (glyphTransfer glyph)).setCursor 0#8 0#8).respond .done)

/-- `SET_BACKLIGHT(colorCode)` (R161). -/
def execSetBacklight (colorCode : Byte) (s : State) : Host.Outcome State Fault Refusal :=
  whenReady s (fun s => (s.emit (backlightWrites colorCode)).respond .done)

end Sys2Proof.Machine
end

