-- ==== Sys2Proof/Machine/Cursor.lean ====
section
/-! DEFINITION. Cursor addressing, clear, home, display scroll (43_cursor_clear_scroll.md R150 to R155). -/

namespace Sys2Proof.Machine

/-- `SET_CURSOR(col, row)` (R151). -/
def execSetCursor (col row : Byte) (s : State) : Host.Outcome State Fault Refusal :=
  whenReady s (fun s => (s.setCursor col row).respond .done)

/-- `CLEAR` (R152). -/
def execClear (s : State) : Host.Outcome State Fault Refusal :=
  whenReady s (fun s => (s.emit clearTransfer).syncCursor.respond .done)

/-- `HOME` (R153). -/
def execHome (s : State) : Host.Outcome State Fault Refusal :=
  whenReady s (fun s => (s.emit homeTransfer).syncCursor.respond .done)

/-- `SCROLL_LEFT` (R154): the shift command with display and left, 0x18. -/
def execScrollLeft (s : State) : Host.Outcome State Fault Refusal :=
  whenReady s (fun s => (s.command (cursorShiftByte true false)).respond .done)

/-- `SCROLL_RIGHT` (R155): the shift command with display and right, 0x1C. -/
def execScrollRight (s : State) : Host.Outcome State Fault Refusal :=
  whenReady s (fun s => (s.command (cursorShiftByte true true)).respond .done)

end Sys2Proof.Machine
end

