-- ==== Sys2Proof/Machine/Emitted.lean ====
section
/-! DEFINITION. The emitted rows as units of their own (30_encoding.md R75 to R84): what one puts on the bus. They write no register and return no
response (40_bus_timing.md R101, R104), and are refused in FAULT, where no event is emitted (60_exceptions.md R196); log 9, log 11. -/

namespace Sys2Proof.Machine

/-- `LCD.CLEARDISPLAY`: byte 0x01, "Must be followed by `Wait(T_CLEAR)`" (R75). -/
def execLcdClearDisplay (s : State) : Host.Outcome State Fault Refusal :=
  unlessFault s (fun s => s.emit clearTransfer)

/-- `LCD.RETURNHOME`: byte 0x02, followed by `Wait(T_CLEAR)` (R76). -/
def execLcdReturnHome (s : State) : Host.Outcome State Fault Refusal :=
  unlessFault s (fun s => s.emit homeTransfer)

/-- `LCD.ENTRYMODESET` (R77). -/
def execLcdEntryModeSet (i sh : Bool) (s : State) : Host.Outcome State Fault Refusal :=
  unlessFault s (fun s => s.command (entryModeByte (packEntry i sh)))

/-- `LCD.DISPLAYCONTROL` (R78). -/
def execLcdDisplayControl (d c b : Bool) (s : State) : Host.Outcome State Fault Refusal :=
  unlessFault s (fun s => s.command (displayControlByte (packDisplay d c b)))

/-- `LCD.CURSORSHIFT` (R79). -/
def execLcdCursorShift (sc rl : Bool) (s : State) : Host.Outcome State Fault Refusal :=
  unlessFault s (fun s => s.command (cursorShiftByte sc rl))

/-- `LCD.FUNCTIONSET` (R80). -/
def execLcdFunctionSet (dl n f : Bool) (s : State) : Host.Outcome State Fault Refusal :=
  unlessFault s (fun s => s.command (functionSetByte (packFunction dl n f)))

/-- `LCD.SETCGRAMADDR`: `0x40 | addr6` (R81). -/
def execLcdSetCgramAddr (addr : BitVec 6) (s : State) : Host.Outcome State Fault Refusal :=
  unlessFault s (fun s => s.command (0x40#8 ||| addr.setWidth 8))

/-- `LCD.SETDDRAMADDR`: `0x80 | addr7` (R82). -/
def execLcdSetDdramAddr (addr : BitVec 7) (s : State) : Host.Outcome State Fault Refusal :=
  unlessFault s (fun s => s.command (0x80#8 ||| addr.setWidth 8))

/-- `LCD.DATA` (R83). -/
def execLcdData (v : Byte) (s : State) : Host.Outcome State Fault Refusal :=
  unlessFault s (fun s => s.data v)

/-- `LCD.INITNIBBLE`: a nibble sent alone by `write4`, RS and R/W as last driven (R84, R101). -/
def execLcdInitNibble (n : Bool) (s : State) : Host.Outcome State Fault Refusal :=
  unlessFault s (fun s => s.emit (write4 (initNibble n)))

end Sys2Proof.Machine
end

