-- ==== Sys2Proof/Machine/Print.lean ====
section
/-! DEFINITION. PRINT, the text layout (45_print.md R170 to R174). -/

namespace Sys2Proof.Machine

/-- `min(line + 1, 255)` (R170, R173). -/
def advanceLine (line : Byte) : Byte := if line = 255#8 then 255#8 else line + 1#8

/-- `reset_col()` (R170): 0 left-to-right, `columns - 1` right-to-left. -/
def resetCol (s : State) : Byte := if leftToRight s.em then 0#8 else s.columns - 1#8

/-- `step()` (R170): +1 left-to-right, -1 right-to-left. -/
def stepCol (s : State) : Int := if leftToRight s.em then 1 else -1

/-- The wrap test of R172: `col > columns - 1 or col < 0`, made whatever the direction. -/
def pastRow (s : State) (col : Int) : Bool := decide ((s.columns.toNat : Int) - 1 < col) || decide (col < 0)

/-- The loop of R170 with its local cursor (line, col); at the end the local cursor is written back (R173). -/
def printLoop : List Byte → Byte → Int → State → State
  | [], line, col, s => s.moveCursor line col
  | ch :: rest, line, col, s =>
    if ch = newline then
      printLoop rest (advanceLine line) (resetCol s).toNat (s.setCursor (resetCol s) (advanceLine line))
    else if pastRow s col then
      printLoop rest (advanceLine line) ((resetCol s).toNat + stepCol s)
        ((s.setCursor (resetCol s) (advanceLine line)).data ch)
    else printLoop rest line (col + stepCol s) (s.data ch)

/-- `PRINT(n, text)` (R170). -/
def execPrint (text : List Byte) (s : State) : Host.Outcome State Fault Refusal :=
  whenReady s (fun s => (printLoop text s.curLine s.curCol s).respond .done)

end Sys2Proof.Machine
end

