-- ==== Sys2Proof/Machine/Start.lean ====
section
/-! DEFINITION. START and the initialization FSM (41_init_start.md R110 to R122). -/

namespace Sys2Proof.Machine

/-- Steps 1 to 7 and completion (R112 to R120), after a prologue that did not fail. -/
def startBody (s : State) : State :=
  let s := s.emit ([.wait .powerOn] ++ controlLow hardware)
  let s := { s with fs := functionShadow hardware s.rows }
  let s := s.emit (synchronise hardware s.fs)
  let s := s.command (functionSetByte s.fs)
  let s := { s with dc := startDisplay }
  let s := s.command (displayControlByte s.dc)
  let s := s.emit clearTransfer
  let s := { s with em := startEntry }
  let s := s.command (entryModeByte s.em)
  let s := s.setCursor 0#8 0#8
  ({ s with phase := .ready }).respond .done

/-- START with its preconditions met (R110): the geometry, the prologue, then either the rest or the fault entry (R122, R195). -/
def startRun (cols rows : Byte) (s : State) : State :=
  let answered := State.issue (prologue hardware) { s with columns := cols, rows := rows }
  if answered.1 then startBody answered.2 else answered.2.raiseIoError

/-- `START(cols, rows)` (R110). Refused unless `phase = UNINIT` and the geometry is good (R74). -/
def execStart (cols rows : Byte) (s : State) : Host.Outcome State Fault Refusal :=
  match s.phase with
  | .uninit => if goodGeometry cols rows then .next (startRun cols rows s) else .refused .badGeometry
  | .ready => .refused .alreadyStarted
  | .fault => .refused .inFault

/-- The events emitted in each named state of the walk (R121). -/
def InitState.emits (hw : Variant) (rows : Byte) : InitState → List Event
  | .config => prologue hw
  | .powerWait => [.wait .powerOn]
  | .ctrlLow => controlLow hw
  | .sync1 => write4 0x3#4 ++ [.wait .sync1]
  | .sync2 => write4 0x3#4 ++ [.wait .sync2]
  | .sync3 => write4 0x3#4 ++ [.wait .sync3]
  | .set4 => write4 0x2#4
  | .funcSet => sendOn hw (0x20#8 ||| functionShadow hw rows) false
  | .display => sendOn hw 0x0C#8 false
  | .clear => sendOn hw 0x01#8 false ++ [.wait .clear]
  | .entry => sendOn hw 0x06#8 false
  | .addr0 => sendOn hw 0x80#8 false

/-- The walk's next state (R121); none when it is done. -/
def InitState.next : InitState → Option InitState
  | .config => some .powerWait
  | .powerWait => some .ctrlLow
  | .ctrlLow => some .sync1
  | .sync1 => some .sync2
  | .sync2 => some .sync3
  | .sync3 => some .set4
  | .set4 => some .funcSet
  | .funcSet => some .display
  | .display => some .clear
  | .clear => some .entry
  | .entry => some .addr0
  | .addr0 => none

/-- The events of a walk of at most `fuel` states from `q` on (R121). -/
def initWalk (hw : Variant) (rows : Byte) : Nat → InitState → List Event
  | 0, _ => []
  | fuel + 1, q =>
    q.emits hw rows ++
      (match q.next with
       | some q' => initWalk hw rows fuel q'
       | none => [])

end Sys2Proof.Machine
end

