-- ==== Sys2Proof/Machine/Toggles.lean ====
section
/-! DEFINITION. The ten flag toggles (42_flag_toggles.md R130 to R140). -/

namespace Sys2Proof.Machine

/-- A display-control toggle (R130): the new shadow, then the whole command byte. -/
def toggleDisplay (newShadow : Byte → Byte) (s : State) : State :=
  (({ s with dc := newShadow s.dc }).command (displayControlByte (newShadow s.dc))).respond .done

/-- An entry-mode toggle (R130): the new shadow, then the whole command byte. -/
def toggleEntry (newShadow : Byte → Byte) (s : State) : State :=
  (({ s with em := newShadow s.em }).command (entryModeByte (newShadow s.em))).respond .done

/-- `DISPLAY_ON` (R131). -/
def execDisplayOn (s : State) : Host.Outcome State Fault Refusal :=
  whenReady s (toggleDisplay (fun v => setFlag v flagD))

/-- `DISPLAY_OFF` (R132). -/
def execDisplayOff (s : State) : Host.Outcome State Fault Refusal :=
  whenReady s (toggleDisplay (fun v => clearFlag v flagD))

/-- `CURSOR_ON` (R133). -/
def execCursorOn (s : State) : Host.Outcome State Fault Refusal :=
  whenReady s (toggleDisplay (fun v => setFlag v flagC))

/-- `CURSOR_OFF` (R134). -/
def execCursorOff (s : State) : Host.Outcome State Fault Refusal :=
  whenReady s (toggleDisplay (fun v => clearFlag v flagC))

/-- `BLINK_ON` (R135). -/
def execBlinkOn (s : State) : Host.Outcome State Fault Refusal :=
  whenReady s (toggleDisplay (fun v => setFlag v flagB))

/-- `BLINK_OFF` (R136). -/
def execBlinkOff (s : State) : Host.Outcome State Fault Refusal :=
  whenReady s (toggleDisplay (fun v => clearFlag v flagB))

/-- `LEFT_TO_RIGHT` (R137). -/
def execLeftToRight (s : State) : Host.Outcome State Fault Refusal :=
  whenReady s (toggleEntry (fun v => setFlag v flagID))

/-- `RIGHT_TO_LEFT` (R138). -/
def execRightToLeft (s : State) : Host.Outcome State Fault Refusal :=
  whenReady s (toggleEntry (fun v => clearFlag v flagID))

/-- `AUTOSCROLL_ON` (R139). -/
def execAutoscrollOn (s : State) : Host.Outcome State Fault Refusal :=
  whenReady s (toggleEntry (fun v => setFlag v flagS))

/-- `AUTOSCROLL_OFF` (R140). -/
def execAutoscrollOff (s : State) : Host.Outcome State Fault Refusal :=
  whenReady s (toggleEntry (fun v => clearFlag v flagS))

end Sys2Proof.Machine
end

