-- ==== Sys2Proof/Machine/Dispatch.lean ====
section
/-! DEFINITION. One arm per instruction. -/

namespace Sys2Proof.Machine

def exec (i : Instr) (s : State) : Host.Outcome State Fault Refusal :=
  match i with
  -- requests (30_encoding.md R70)
  | .start cols rows => Sys2Proof.Machine.execStart cols rows s
  | .clear => Sys2Proof.Machine.execClear s
  | .home => Sys2Proof.Machine.execHome s
  | .setCursor col row => Sys2Proof.Machine.execSetCursor col row s
  | .displayOn => Sys2Proof.Machine.execDisplayOn s
  | .displayOff => Sys2Proof.Machine.execDisplayOff s
  | .cursorOn => Sys2Proof.Machine.execCursorOn s
  | .cursorOff => Sys2Proof.Machine.execCursorOff s
  | .blinkOn => Sys2Proof.Machine.execBlinkOn s
  | .blinkOff => Sys2Proof.Machine.execBlinkOff s
  | .scrollLeft => Sys2Proof.Machine.execScrollLeft s
  | .scrollRight => Sys2Proof.Machine.execScrollRight s
  | .leftToRight => Sys2Proof.Machine.execLeftToRight s
  | .rightToLeft => Sys2Proof.Machine.execRightToLeft s
  | .autoscrollOn => Sys2Proof.Machine.execAutoscrollOn s
  | .autoscrollOff => Sys2Proof.Machine.execAutoscrollOff s
  | .createChar slot glyph => Sys2Proof.Machine.execCreateChar slot glyph s
  | .setBacklight colorCode => Sys2Proof.Machine.execSetBacklight colorCode s
  | .print text => Sys2Proof.Machine.execPrint text s
  | .readButtons => Sys2Proof.Machine.execReadButtons s
  -- emitted rows (30_encoding.md R75 to R84)
  | .lcdClearDisplay => Sys2Proof.Machine.execLcdClearDisplay s
  | .lcdReturnHome => Sys2Proof.Machine.execLcdReturnHome s
  | .lcdEntryModeSet idBit sBit => Sys2Proof.Machine.execLcdEntryModeSet idBit sBit s
  | .lcdDisplayControl dBit cBit bBit => Sys2Proof.Machine.execLcdDisplayControl dBit cBit bBit s
  | .lcdCursorShift scBit rlBit => Sys2Proof.Machine.execLcdCursorShift scBit rlBit s
  | .lcdFunctionSet dlBit nBit fBit => Sys2Proof.Machine.execLcdFunctionSet dlBit nBit fBit s
  | .lcdSetCgramAddr addr => Sys2Proof.Machine.execLcdSetCgramAddr addr s
  | .lcdSetDdramAddr addr => Sys2Proof.Machine.execLcdSetDdramAddr addr s
  | .lcdData value => Sys2Proof.Machine.execLcdData value s
  | .lcdInitNibble n => Sys2Proof.Machine.execLcdInitNibble n s

end Sys2Proof.Machine
end

