-- ==== Sys2Proof/Machine/Step.lean ====
section
/-! DEFINITION. One step of the machine, and where the host stores a table word so that the next step runs it. -/

namespace Sys2Proof.Machine

/-- One step: a reset asserted now is taken first (R210); else the next unit or request runs to completion (R198), unless the scheduled interruption falls in
it; else, with no whole request on the port, the block idles (R203, R211; log 25). -/
def step (s : State) : Host.Outcome State Fault Refusal :=
  match s.interruption with
  | some (.resetAfter 0) => .next s.resetBlock
  | _ =>
    match fetch s with
    | .idle => .next s
    | .refuse r => .refused r
    | .run i s' =>
      match exec i s' with
      | .next t => interrupted s' t
      | .fault r => .fault r
      | .refused r => .refused r

/-- A table word placed where `step` takes its next instruction: a request's bytes alone on the port, or an emitted unit as the sequencer's micro-step; no
interruption is left to come before it (log 10, log 26). -/
def State.withFetchWord (s : State) (nbits w : Nat) : State :=
  match tableWord nbits w with
  | some (.request bytes) => { s with requests := bytes, microStep := none, interruption := none }
  | some (.unit u) => { s with microStep := some u, interruption := none }
  | none => s

end Sys2Proof.Machine
end

