-- ==== Sys2Proof/Machine/View.lean ====
section
/-! DEFINITION. Derived views of the trace: the reference pin bank (20_memory.md R48), latched transfers (R49), bytes (R50), least durations (R106, R220).
No rule of the block reads them. -/

namespace Sys2Proof.Machine

/-- `out[p]` of the reference pin bank after the events, from a value before them; none is unknown (R48). -/
def outLevel (p : Pin) : List Event → Option Level → Option Level
  | [], before => before
  | .write q l :: rest, before => outLevel p rest (if q = p then some l else before)
  | _ :: rest, before => outLevel p rest before

/-- `dir[p]` of the reference pin bank (R48). -/
def lineDir (p : Pin) : List Event → Option Direction → Option Direction
  | [], before => before
  | .mode q d :: rest, before => lineDir p rest (if q = p then some d else before)
  | _ :: rest, before => lineDir p rest before

/-- `pull[p]` of the reference pin bank (R48). -/
def linePull (p : Pin) : List Event → Option Bool → Option Bool
  | [], before => before
  | .pull q e :: rest, before => linePull p rest (if q = p then some e else before)
  | _ :: rest, before => linePull p rest before

/-- The levels of the lines a latched transfer looks at; none is unknown. -/
structure BusLines where
  rs : Option Level
  rw : Option Level
  en : Option Level
  d4 : Option Level
  d5 : Option Level
  d6 : Option Level
  d7 : Option Level
  deriving DecidableEq, Repr

/-- All unknown, as at power-on (R48). -/
def BusLines.unknown : BusLines := ⟨none, none, none, none, none, none, none⟩

/-- The lines after `W(p,l)`. -/
def BusLines.drive (b : BusLines) (p : Pin) (l : Level) : BusLines :=
  match p with
  | .rs => { b with rs := some l }
  | .rw => { b with rw := some l }
  | .en => { b with en := some l }
  | .d4 => { b with d4 := some l }
  | .d5 => { b with d5 := some l }
  | .d6 => { b with d6 := some l }
  | .d7 => { b with d7 := some l }
  | _ => b

/-- One latched transfer `(rs, rw, d)`; none where a level is unknown (R49). -/
structure Latched where
  rs : Option Level
  rw : Option Level
  d : Option Nibble
  deriving DecidableEq, Repr

/-- `{D7, D6, D5, D4}` as a nibble, D7 in the high bit (R49). -/
def BusLines.nibble (b : BusLines) : Option Nibble :=
  match b.d7, b.d6, b.d5, b.d4 with
  | some x7, some x6, some x5, some x4 => some (bit1 (bitOf x7) ++ bit1 (bitOf x6) ++ bit1 (bitOf x5) ++ bit1 (bitOf x4))
  | _, _, _, _ => none
where
  bit1 (b : Bool) : BitVec 1 := BitVec.ofBool b

/-- The transfer the lines stand for. -/
def BusLines.latch (b : BusLines) : Latched := ⟨b.rs, b.rw, b.nibble⟩

/-- The scan of R49. `up`: EN has gone 0 -> 1 and no other `W` has come since. -/
def latchedFrom : BusLines → Bool → List Event → List Latched
  | _, _, [] => []
  | b, up, .write p l :: rest =>
    if p = .en then
      if up && decide (l = .low) then b.latch :: latchedFrom (b.drive p l) false rest
      else latchedFrom (b.drive p l) (decide (b.en = some .low) && decide (l = .high)) rest
    else latchedFrom (b.drive p l) false rest
  | b, up, _ :: rest => latchedFrom b up rest

/-- The latched transfers of a trace from power-on (R49). -/
def latched (evs : List Event) : List Latched := latchedFrom .unknown false evs

/-- A byte as it reached the controller: with RS High (data) or Low (command). -/
structure SentByte where
  isData : Bool
  value : Byte
  deriving DecidableEq, Repr

/-- Two latched nibbles paired, high nibble first (R49, R50); none unless both are known, R/W is Low and RS is the same. -/
def pairOf (hi lo : Latched) : Option SentByte :=
  match hi.d, lo.d, hi.rs with
  | some h, some l, some r =>
    if hi.rs = lo.rs ∧ hi.rw = some .low ∧ lo.rw = some .low then some ⟨bitOf r, h ++ l⟩ else none
  | _, _, _ => none

/-- Pairs up latched nibbles into bytes; none when one is left over or a pair is no byte. -/
def pairUp : List Latched → Option (List SentByte)
  | [] => some []
  | [_] => none
  | hi :: lo :: rest =>
    match pairOf hi lo, pairUp rest with
    | some b, some bs => some (b :: bs)
    | _, _ => none

/-- The bytes a list of events sends to the controller, if they are whole bytes. -/
def sentBytes (evs : List Event) : Option (List SentByte) := pairUp (latched evs)

/-- The sum of the waits of a list of events, in nanoseconds (R62: waits add; R220). -/
def leastDuration : List Event → Nat
  | [] => 0
  | .wait t :: rest => t.nanoseconds + leastDuration rest
  | _ :: rest => leastDuration rest

end Sys2Proof.Machine
end

