-- ==== Sys2Proof/Safety.lean ====
section
/-! DEFINITION. The terms claims use: traces spelled out from the spec's vectors (95_test_vectors.md), invariants, and predicates over events. Written apart from the
machine's own definitions, so that a claim compares two texts. -/

namespace Sys2Proof.Safety

open Sys2Proof.Machine

/-- Bit i of a byte as a level. -/
def bitLevel (v : Byte) (i : Nat) : Level := if v.getLsbD i then .high else .low

/-- `P` of 95_test_vectors.md: the five events of a pulse (R100). -/
def tracePulse : List Event :=
  [.write .en .low, .write .en .high, .wait .enHigh, .write .en .low, .wait .settle]

/-- `N(n)` of 95_test_vectors.md (R101). -/
def traceNibble (n : Nibble) : List Event :=
  [ .write .d4 (if n.getLsbD 0 then .high else .low), .write .d5 (if n.getLsbD 1 then .high else .low),
    .write .d6 (if n.getLsbD 2 then .high else .low), .write .d7 (if n.getLsbD 3 then .high else .low),
    .write .en .low, .write .en .high, .wait .enHigh, .write .en .low, .wait .settle ]

/-- The 20 events of V10: RS, R/W Low, bits 4 to 7 on D4 to D7 and a pulse, bits 0 to 3 and a pulse (R104). -/
def traceByte (rs : Level) (v : Byte) : List Event :=
  [ .write .rs rs, .write .rw .low,
    .write .d4 (bitLevel v 4), .write .d5 (bitLevel v 5), .write .d6 (bitLevel v 6), .write .d7 (bitLevel v 7),
    .write .en .low, .write .en .high, .wait .enHigh, .write .en .low, .wait .settle,
    .write .d4 (bitLevel v 0), .write .d5 (bitLevel v 1), .write .d6 (bitLevel v 2), .write .d7 (bitLevel v 3),
    .write .en .low, .write .en .high, .wait .enHigh, .write .en .low, .wait .settle ]

/-- `C(v)` of 95_test_vectors.md: a command byte, RS Low. -/
def traceC (v : Byte) : List Event := traceByte .low v

/-- `D(v)` of 95_test_vectors.md: a data byte, RS High. -/
def traceD (v : Byte) : List Event := traceByte .high v

/-- Events 1 to 21 of V20: the prologue (R111). -/
def tracePrologue : List Event :=
  [ .adapterOpen,
    .mode .rs .output, .mode .rw .output, .mode .en .output, .mode .d4 .output, .mode .d5 .output, .mode .d6 .output, .mode .d7 .output,
    .mode .bl0 .output, .mode .bl1 .output, .mode .bl2 .output,
    .mode .btnUp .input, .pull .btnUp true, .mode .btnDown .input, .pull .btnDown true, .mode .btnLeft .input, .pull .btnLeft true,
    .mode .btnRight .input, .pull .btnRight true, .mode .btnSelect .input, .pull .btnSelect true ]

/-- The 165 events of V20, with the function-set byte as a parameter (0x28, or 0x20 for one row: V21). -/
def traceStart (functionSet : Byte) : List Event :=
  tracePrologue
    ++ [.wait .powerOn, .write .rs .low, .write .en .low, .write .rw .low]
    ++ traceNibble 0x3#4 ++ [.wait .sync1]
    ++ traceNibble 0x3#4 ++ [.wait .sync2]
    ++ traceNibble 0x3#4 ++ [.wait .sync3]
    ++ traceNibble 0x2#4
    ++ traceC functionSet
    ++ traceC 0x0C#8
    ++ traceC 0x01#8 ++ [.wait .clear]
    ++ traceC 0x06#8
    ++ traceC 0x80#8

/-- The geometries START accepts: `cols > 0` and `rows` in 1, 2, 4 (R23, R74). -/
def validGeometry (cols rows : Byte) : Prop := cols ≠ 0#8 ∧ (rows = 1#8 ∨ rows = 2#8 ∨ rows = 4#8)

/-- `ROW_OFFSET` of R60 and R150 for the rows it has. -/
def rowBase (r : Nat) : Byte := [0x00#8, 0x40#8, 0x14#8, 0x54#8].getD r 0#8

/-- `r'` of R150. -/
def clampedRow (rows r : Byte) : Byte := if r < rows then r else rows - 1#8

/-- The set-DDRAM-address byte of R150 for a row and a column. -/
def addressByte (rows c r : Byte) : Byte := 0x80#8 ||| (rowBase (clampedRow rows r).toNat + c)

/-- The column a newline or a wrap resets to (R170). -/
def resetColumn (s : State) : Byte := if s.em.getLsbD 1 then 0#8 else s.columns - 1#8

/-- `min(line + 1, 255)` (R170). -/
def nextLine (line : Byte) : Byte := BitVec.ofNat 8 (min (line.toNat + 1) 255)

/-- `+1` or `-1` (R170). -/
def columnStep (s : State) : Int := if s.em.getLsbD 1 then 1 else -1

/-- What the registers of a started block satisfy, and the fault code of every block (R22, R25, R37). -/
def RegistersLegal (s : State) : Prop :=
  (s.faultCode = if s.phase = .fault then 1#2 else 0#2) ∧
  (s.phase = .ready →
    validGeometry s.columns s.rows ∧
    s.fs = (if s.rows = 1#8 then 0x00#8 else 0x08#8) ∧
    s.dc ≤ 0x07#8 ∧ s.em ≤ 0x03#8 ∧ -1 ≤ s.curCol ∧ s.curCol ≤ 255)

/-- The ten output lines of this hardware (R44). -/
def outputLines : List Pin := [.rs, .rw, .en, .d4, .d5, .d6, .d7, .bl0, .bl1, .bl2]

/-- The five button lines (R45). -/
def buttonLines : List Pin := [.btnUp, .btnDown, .btnLeft, .btnRight, .btnSelect]

/-- What the adapter contract lets the block do with a line (R42 to R46, R107): outputs are only written, R/W only Low; buttons are only read, with their pull-up on. -/
def legalEvent : Event → Prop
  | .adapterOpen => True
  | .mode p d => (p ∈ outputLines ∧ d = .output) ∨ (p ∈ buttonLines ∧ d = .input)
  | .pull p e => p ∈ buttonLines ∧ e = true
  | .write p l => p ∈ outputLines ∧ (p = .rw → l = .low)
  | .read p _ => p ∈ buttonLines
  | .wait _ => True

/-- Every `W` comes after a `Mode(p,Output)` of its line; `done` are the lines configured before (R44). -/
def writesConfigured : List Pin → List Event → Prop
  | _, [] => True
  | done, .mode p .output :: rest => writesConfigured (p :: done) rest
  | done, .write p _ :: rest => p ∈ done ∧ writesConfigured done rest
  | done, _ :: rest => writesConfigured done rest

/-- Writes only to configured lines, and a READY block has all ten configured; between operations the sequencer holds no unit (R31, R44). -/
def LinesConfigured (s : State) : Prop :=
  s.microStep = none ∧ writesConfigured [] s.trace ∧
    (s.phase = .ready → ∀ p ∈ outputLines, .mode p .output ∈ s.trace)

/-- The enable pulses of a trace (V10): after `W(EN,1)` come at once `Wait(T_EN_HIGH)`, `W(EN,0)`, `Wait(T_SETTLE)`, so nothing changes while EN is High. -/
def wellPulsed : List Event → Prop
  | [] => True
  | .write .en .high :: .wait .enHigh :: .write .en .low :: .wait .settle :: rest => wellPulsed rest
  | .write .en .high :: _ => False
  | _ :: rest => wellPulsed rest

/-- The outcome with its next state changed. -/
def mapNext (f : State → State) : Host.Outcome State Fault Refusal → Host.Outcome State Fault Refusal
  | .next t => .next (f t)
  | .fault r => .fault r
  | .refused r => .refused r

/-- Two bus waits: `2*(T_EN_HIGH + T_SETTLE)`, the least wait of one byte (R106, R220). -/
def byteWait : Nat := 2 * (Timer.enHigh.nanoseconds + Timer.settle.nanoseconds)

end Sys2Proof.Safety
end

