-- ==== Sys2Proof/Certificates/Slice0/Obligations.lean ====
section
/-! DEFINITION. The statements for the provers. Each is about `exec` or `step` and every state that meets its hypotheses; what the spec writes as a trace is
spelled out in Safety.lean. -/

open Sys2Proof Sys2Proof.Machine Sys2Proof.Safety

-- ENCODING

/-- Words written out from the spec decode to what they stand for (the opcodes of R70, R71's examples, V3, V30, the reserved opcode of R74, R77 to R84). That the request of
PRINT lies on the port as op, a, b and the payload, first byte first, is the model's choice (log 7). -/
def Obligations.SpecWordsDecode : Prop :=
  decodeTableWord 24 0x001002 = some (.start 16#8 2#8) ∧
  decodeTableWord 24 0x030501 = some (.setCursor 5#8 1#8) ∧
  decodeTableWord 24 0x06ABCD = some .cursorOn ∧
  decodeTableWord 24 0x110500 = some (.setBacklight 5#8) ∧
  decodeTableWord 24 0x140000 = none ∧
  decodeRequest [0x12#8, 0x03#8, 0x00#8, 0x41#8, 0x0A#8, 0x42#8, 0x13#8] = .ok (.print [0x41#8, 0x0A#8, 0x42#8], [0x13#8]) ∧
  decodeUnit (.command 0b00001110#8) = .ok (.lcdDisplayControl true true false) ∧
  decodeUnit (.command 0b11000101#8) = .ok (.lcdSetDdramAddr 0x45#7) ∧
  decodeUnit (.nibble 0b0011#4) = .ok (.lcdInitNibble true)

/-- Decode of encode is the identity on every well-formed request, whatever follows it on the port (whose byte order is the model's choice, log 7). -/
def Obligations.RequestDecodeInvertsEncode : Prop :=
  ∀ i : Instr, i.wellFormed = true → i.isRequest = true →
    ∃ bytes, encode i = .request bytes ∧ ∀ rest, decodeRequest (bytes ++ rest) = .ok (i, rest)

/-- Emitted rows: decode of encode is the identity, and every unit that decodes is the encoding of what it decodes to. -/
def Obligations.EmittedDecodeAndEncodeInverse : Prop :=
  (∀ i : Instr, i.isRequest = false → ∃ u, encode i = .unit u ∧ decodeUnit u = .ok i) ∧
  (∀ (u : BusUnit) (i : Instr), decodeUnit u = .ok i → i.isRequest = false ∧ encode i = .unit u)

/-- What the decoder accepts: a well-formed request (R72) of an opcode below 0x14 (R74), whose payload after the 3-byte header is as long as R89 says. That op, a, b and the
payload lie on the port in this order is the model's choice (log 7). -/
def Obligations.RequestLengthIsFunctionOfHeader : Prop :=
  ∀ (bytes rest : List Byte) (i : Instr), decodeRequest bytes = .ok (i, rest) →
    i.isRequest = true ∧ i.wellFormed = true ∧
    ∃ (op a b : Byte) (payload : List Byte), bytes = op :: a :: b :: (payload ++ rest) ∧ op < 0x14#8 ∧
      payload.length = (if op = 0x10#8 then 8 else if op = 0x12#8 then a.toNat else 0)

/-- R72: fields a format does not use change nothing: `a` and `b` of the formats N, `b` of A, P8 and PN. Their places among the bytes of the port are the model's choice
(log 7). -/
def Obligations.IgnoredFieldsChangeNothing : Prop :=
  ∀ (op a b : Byte) (rest : List Byte),
    (op ∉ [0x00#8, 0x03#8, 0x10#8, 0x11#8, 0x12#8] → decodeRequest (op :: a :: b :: rest) = decodeRequest (op :: 0#8 :: 0#8 :: rest)) ∧
    (op ∈ [0x10#8, 0x11#8, 0x12#8] → decodeRequest (op :: a :: b :: rest) = decodeRequest (op :: a :: 0#8 :: rest))

-- THE STEP

/-- With no interruption and no unit of its own, `step` is `exec` of the request the decoder reads, at the state with the request taken off the port (a list of bytes: the
model's choice, log 7). -/
def Obligations.StepRunsDecodedRequest : Prop :=
  ∀ (s : State) (i : Instr) (rest : List Byte),
    s.interruption = none → s.microStep = none → decodeRequest s.requests = .ok (i, rest) →
    step s = exec i { s with requests := rest }

/-- With no interruption, `step` is `exec` of the unit the sequencer holds, at the state with the unit taken (the model's choice, log 9). -/
def Obligations.StepRunsEmittedUnit : Prop :=
  ∀ (s : State) (u : BusUnit) (i : Instr),
    s.interruption = none → s.microStep = some u → decodeUnit u = .ok i →
    step s = exec i { s with microStep := none }

/-- A table word placed by `withFetchWord` is what the next step runs, whatever waited before it (the placing is the model's choice, log 10 and log 26). -/
def Obligations.TableWordRunsNext : Prop :=
  ∀ (s : State) (nbits w : Nat) (i : Instr), decodeTableWord nbits w = some i →
    step (s.withFetchWord nbits w) =
      exec i { s with requests := if nbits = 24 then [] else s.requests, microStep := none, interruption := none }

/-- A reserved opcode stops the step by name; an incomplete request leaves the state as it is (the waiting is the model's choice, log 7 and log 25). -/
def Obligations.StepRefusesReservedAndWaits : Prop :=
  (∀ (s : State) (op a b : Byte) (rest : List Byte), s.interruption ≠ some (.resetAfter 0) → s.microStep = none →
      s.requests = op :: a :: b :: rest → 0x14#8 ≤ op → step s = .refused (.reservedOpcode op)) ∧
  (∀ s : State, s.interruption ≠ some (.resetAfter 0) → s.microStep = none →
      decodeRequest s.requests = .error .incomplete → step s = .next s)

/-- R210: the reset input puts any state to UNINIT with fault code 0 and emits no event. That the trace and the responses are kept, that what waits on the ports is left and that
no other schedule remains is the model's choice (log 2); so is how a reset is scheduled (log 12). -/
def Obligations.ResetInputReturnsToUninit : Prop :=
  ∀ s : State, s.interruption = some (.resetAfter 0) →
    ∃ t, step s = .next t ∧ t.phase = .uninit ∧ t.faultCode = 0#2 ∧ t.microStep = none ∧ t.interruption = none ∧
      t.trace = s.trace ∧ t.responses = s.responses ∧ t.requests = s.requests ∧
      t.adapterAnswers = s.adapterAnswers ∧ t.lineLevels = s.lineLevels

/-- A reset asserted after k events of an operation that has more of them cuts its trace there, returns no response and leaves the block reset (R108, R216). The model's choice:
that the trace before the operation, the responses and what waits on the port are kept (log 2), how the reset is scheduled, and that one that falls right after the operation's
last event, or later, leaves the operation as it is (log 12). -/
def Obligations.ResetInMidOperationCutsTrace : Prop :=
  ∀ (s t : State) (i : Instr) (rest : List Byte) (k : Nat),
    s.interruption = some (.resetAfter k) → 0 < k → s.microStep = none →
    decodeRequest s.requests = .ok (i, rest) → exec i { s with requests := rest } = .next t →
    (s.trace.length + k < t.trace.length →
      ∃ u, step s = .next u ∧ u.phase = .uninit ∧ u.faultCode = 0#2 ∧ u.trace = t.trace.take (s.trace.length + k) ∧
        u.responses = s.responses ∧ u.requests = rest ∧ u.microStep = none) ∧
    (t.trace.length ≤ s.trace.length + k →
      step s = .next { t with interruption := some (.resetAfter (s.trace.length + k - t.trace.length)) })

/-- An adapter call that never returns leaves the block stuck, if the operation makes more calls than return (U14; the schedule is the model's choice, log 12). -/
def Obligations.HangingAdapterCallSticks : Prop :=
  ∀ (s t : State) (i : Instr) (rest : List Byte) (k : Nat),
    s.interruption = some (.hangAfter k) → s.microStep = none →
    decodeRequest s.requests = .ok (i, rest) → exec i { s with requests := rest } = .next t →
    (k < ((t.trace.drop s.trace.length).filter Event.isCall).length → step s = .fault .adapterHang) ∧
    (((t.trace.drop s.trace.length).filter Event.isCall).length ≤ k → ∃ u, step s = .next u ∧ u.trace = t.trace ∧ u.responses = t.responses)

-- THE BUS

/-- R100, R101, R104, R105: the primitives are exactly the event lists of V10; one `send` is 20 events. -/
def Obligations.BusPrimitivesEmitSpecTraces : Prop :=
  pulse = tracePulse ∧ (∀ n : Nibble, write4 n = traceNibble n) ∧
  (∀ v : Byte, command v = traceC v ∧ data v = traceD v ∧ send v false = command v ∧ send v true = data v) ∧
  (∀ (v : Byte) (isData : Bool), (send v isData).length = 20)

/-- R104, R49: whatever the lines were, one `send` latches exactly the high nibble and then the low nibble, with RS as asked and R/W Low, and leaves EN Low. -/
def Obligations.SendLatchesHighThenLowNibble : Prop :=
  ∀ (b : BusLines) (up isData : Bool) (v : Byte) (rest : List Event),
    ∃ b' : BusLines, b'.en = some .low ∧
      latchedFrom b up (send v isData ++ rest) =
        [ ⟨some (if isData then .high else .low), some .low, some (v.extractLsb' 4 4)⟩,
          ⟨some (if isData then .high else .low), some .low, some (v.extractLsb' 0 4)⟩ ] ++ latchedFrom b' false rest

/-- R103, R104, R115: the 8-bit variant, which this hardware does not instantiate: one pulse for eight lines, 13 events, and three full function-set commands. -/
def Obligations.EightBitVariantShape : Prop :=
  ∀ v fs : Byte,
    write8 v = [ .write .d0 (bitLevel v 0), .write .d1 (bitLevel v 1), .write .d2 (bitLevel v 2), .write .d3 (bitLevel v 3),
                 .write .d4 (bitLevel v 4), .write .d5 (bitLevel v 5), .write .d6 (bitLevel v 6), .write .d7 (bitLevel v 7) ] ++ tracePulse ∧
    (write8 v).length = 13 ∧
    (∀ isData, sendOn ⟨.eight, true, true⟩ v isData =
      [.write .rs (if isData then .high else .low), .write .rw .low] ++ write8 v) ∧
    (∀ isData, sendOn ⟨.eight, false, true⟩ v isData = [.write .rs (if isData then .high else .low)] ++ write8 v) ∧
    synchronise ⟨.eight, true, true⟩ fs =
      sendOn ⟨.eight, true, true⟩ (0x20#8 ||| fs) false ++ [.wait .sync1] ++ sendOn ⟨.eight, true, true⟩ (0x20#8 ||| fs) false ++ [.wait .sync2]
        ++ sendOn ⟨.eight, true, true⟩ (0x20#8 ||| fs) false ++ [.wait .sync3]

-- START

/-- START from UNINIT with a good geometry and an adapter that answers Ok sixteen times: the 165 events of V20 (V21 for one row), the registers of R36, the
response done; nothing else changes (R110 to R120). The order of the prologue's calls is R111's, which the spec calls its own (D8, log 19). -/
def Obligations.StartCompletes : Prop :=
  ∀ (s : State) (cols rows : Byte) (later : List AdapterAnswer),
    s.phase = .uninit → validGeometry cols rows → s.adapterAnswers = List.replicate 16 .ok ++ later →
    exec (.start cols rows) s = .next { s with
      phase := .ready, columns := cols, rows := rows,
      fs := if rows = 1#8 then 0x00#8 else 0x08#8, dc := 0x04#8, em := 0x02#8, curLine := 0#8, curCol := 0,
      adapterAnswers := later,
      trace := s.trace ++ traceStart (if rows = 1#8 then 0x20#8 else 0x28#8),
      responses := s.responses ++ [.done] } ∧
    (traceStart (if rows = 1#8 then 0x20#8 else 0x28#8)).length = 165

/-- R195, R122: when the (k+1)-th call that can fail answers IoError, the trace ends with that call, fault code 1, phase FAULT, response fault 1; columns and rows
keep the operands and nothing else changes. The order of the prologue's calls is R111's, which the spec calls its own (D8, log 19). -/
def Obligations.StartFaultIsPrecise : Prop :=
  ∀ (s : State) (cols rows : Byte) (k : Nat) (later : List AdapterAnswer),
    s.phase = .uninit → validGeometry cols rows → k < 16 →
    s.adapterAnswers = List.replicate k .ok ++ .ioError :: later →
    ∃ (before : List Event) (failing : Event),
      before ++ [failing] <+: tracePrologue ∧ failing.canFail = true ∧ (before.filter Event.canFail).length = k ∧
      exec (.start cols rows) s = .next { s with
        phase := .fault, faultCode := 1#2, columns := cols, rows := rows, adapterAnswers := later,
        trace := s.trace ++ (before ++ [failing]), responses := s.responses ++ [.fault 1#2] }

/-- START always ends, whatever the adapter answers: from UNINIT with a good geometry it reaches READY with done or FAULT with fault 1. -/
def Obligations.StartEndsReadyOrFault : Prop :=
  ∀ (s : State) (cols rows : Byte), s.phase = .uninit → validGeometry cols rows →
    ∃ t, exec (.start cols rows) s = .next t ∧ t.columns = cols ∧ t.rows = rows ∧
      ((t.phase = .ready ∧ t.faultCode = s.faultCode ∧ t.responses = s.responses ++ [.done]) ∨
       (t.phase = .fault ∧ t.faultCode = 1#2 ∧ t.responses = s.responses ++ [.fault 1#2]))

/-- R121: START's straight-line expansion and the walk of the named FSM states emit the same events. -/
def Obligations.StartFollowsInitFsm : Prop :=
  ∀ (s t : State) (cols rows : Byte),
    exec (.start cols rows) s = .next t → t.phase = .ready →
    t.trace = s.trace ++ initWalk hardware rows 12 .config

/-- R110's example and R120: START's fourteen latched transfers, all with RS and R/W Low; the last ten pair up to the bytes 0x28 (0x20 for one row), 0x0C, 0x01, 0x06, 0x80. -/
def Obligations.StartLatchesInitSequence : Prop :=
  ∀ (s t : State) (cols rows : Byte),
    exec (.start cols rows) s = .next t → t.phase = .ready →
    latched (t.trace.drop s.trace.length) =
      [0x3#4, 0x3#4, 0x3#4, 0x2#4, 0x2#4, (if rows = 1#8 then 0x0#4 else 0x8#4), 0x0#4, 0xC#4, 0x0#4, 0x1#4, 0x0#4, 0x6#4, 0x8#4, 0x0#4].map
        (fun n => ⟨some .low, some .low, some n⟩)

-- THE TOGGLES

/-- R131 to R136: each display-control toggle has its opcode, changes one bit of `dc`, resends the whole byte and changes nothing else (R130). That a request
lies on the port as op, a, b is the model's choice (log 7). -/
def Obligations.DisplayTogglesComplete : Prop :=
  (∀ (a b : Byte) (rest : List Byte),
    decodeRequest (0x04#8 :: a :: b :: rest) = .ok (.displayOn, rest) ∧ decodeRequest (0x05#8 :: a :: b :: rest) = .ok (.displayOff, rest) ∧
    decodeRequest (0x06#8 :: a :: b :: rest) = .ok (.cursorOn, rest) ∧ decodeRequest (0x07#8 :: a :: b :: rest) = .ok (.cursorOff, rest) ∧
    decodeRequest (0x08#8 :: a :: b :: rest) = .ok (.blinkOn, rest) ∧ decodeRequest (0x09#8 :: a :: b :: rest) = .ok (.blinkOff, rest)) ∧
  ∀ s : State, s.phase = .ready →
    exec .displayOn s = .next { s with dc := s.dc ||| 0x04#8, trace := s.trace ++ traceC (0x08#8 ||| (s.dc ||| 0x04#8)), responses := s.responses ++ [.done] } ∧
    exec .displayOff s = .next { s with dc := s.dc &&& 0xFB#8, trace := s.trace ++ traceC (0x08#8 ||| (s.dc &&& 0xFB#8)), responses := s.responses ++ [.done] } ∧
    exec .cursorOn s = .next { s with dc := s.dc ||| 0x02#8, trace := s.trace ++ traceC (0x08#8 ||| (s.dc ||| 0x02#8)), responses := s.responses ++ [.done] } ∧
    exec .cursorOff s = .next { s with dc := s.dc &&& 0xFD#8, trace := s.trace ++ traceC (0x08#8 ||| (s.dc &&& 0xFD#8)), responses := s.responses ++ [.done] } ∧
    exec .blinkOn s = .next { s with dc := s.dc ||| 0x01#8, trace := s.trace ++ traceC (0x08#8 ||| (s.dc ||| 0x01#8)), responses := s.responses ++ [.done] } ∧
    exec .blinkOff s = .next { s with dc := s.dc &&& 0xFE#8, trace := s.trace ++ traceC (0x08#8 ||| (s.dc &&& 0xFE#8)), responses := s.responses ++ [.done] }

/-- R137 to R140: each entry-mode toggle has its opcode, changes one bit of `em`, resends the whole byte and changes nothing else (CursorState among it); the direction is
`em[1]` (R29), and PRINT does not look at `em.S`. That a request lies on the port as op, a, b is the model's choice (log 7). -/
def Obligations.EntryTogglesComplete : Prop :=
  (∀ (a b : Byte) (rest : List Byte),
    decodeRequest (0x0C#8 :: a :: b :: rest) = .ok (.leftToRight, rest) ∧ decodeRequest (0x0D#8 :: a :: b :: rest) = .ok (.rightToLeft, rest) ∧
    decodeRequest (0x0E#8 :: a :: b :: rest) = .ok (.autoscrollOn, rest) ∧ decodeRequest (0x0F#8 :: a :: b :: rest) = .ok (.autoscrollOff, rest)) ∧
  (∀ s : State, s.phase = .ready →
    exec .leftToRight s = .next { s with em := s.em ||| 0x02#8, trace := s.trace ++ traceC (0x04#8 ||| (s.em ||| 0x02#8)), responses := s.responses ++ [.done] } ∧
    exec .rightToLeft s = .next { s with em := s.em &&& 0xFD#8, trace := s.trace ++ traceC (0x04#8 ||| (s.em &&& 0xFD#8)), responses := s.responses ++ [.done] } ∧
    exec .autoscrollOn s = .next { s with em := s.em ||| 0x01#8, trace := s.trace ++ traceC (0x04#8 ||| (s.em ||| 0x01#8)), responses := s.responses ++ [.done] } ∧
    exec .autoscrollOff s = .next { s with em := s.em &&& 0xFE#8, trace := s.trace ++ traceC (0x04#8 ||| (s.em &&& 0xFE#8)), responses := s.responses ++ [.done] }) ∧
  (∀ em : Byte, leftToRight (em ||| 0x02#8) = true ∧ leftToRight (em &&& 0xFD#8) = false) ∧
  (∀ (s : State) (text : List Byte),
    exec (.print text) { s with em := s.em ^^^ 0x01#8 } = mapNext (fun t => { t with em := s.em ^^^ 0x01#8 }) (exec (.print text) s))

/-- R130, conflict C9: a set followed by the matching clear restores `dc` exactly when the bit was 0 before, and always sends two commands; each toggle is idempotent on the
shadow. Pairs: cursor, blink, display; each bit is the one the pair toggles. -/
def Obligations.ToggleTwiceLaw : Prop :=
  ∀ (s : State) (on off : Instr) (bit : Nat), s.phase = .ready →
    ((on, off, bit) ∈ [(Instr.displayOn, Instr.displayOff, 2), (.cursorOn, .cursorOff, 1), (.blinkOn, .blinkOff, 0)]) →
    ∃ t u w, exec on s = .next t ∧ exec off t = .next u ∧ exec on t = .next w ∧
      (u.dc = s.dc ↔ s.dc.getLsbD bit = false) ∧ w.dc = t.dc ∧
      sentBytes (u.trace.drop s.trace.length) = some [⟨false, 0x08#8 ||| t.dc⟩, ⟨false, 0x08#8 ||| u.dc⟩]

/-- V7: left-to-right, right-to-left, left-to-right ends with the whole shadow as after the first call, and the bit reads 1, 0, 1; autoscroll is untouched. -/
def Obligations.DirectionRoundTrip : Prop :=
  ∀ s : State, s.phase = .ready →
    ∃ t u w, exec .leftToRight s = .next t ∧ exec .rightToLeft t = .next u ∧ exec .leftToRight u = .next w ∧
      w.em = t.em ∧ t.em.getLsbD 1 = true ∧ u.em.getLsbD 1 = false ∧
      t.em.getLsbD 0 = s.em.getLsbD 0 ∧ u.em.getLsbD 0 = s.em.getLsbD 0

-- CURSOR, CLEAR, HOME, SCROLL

/-- R150, R151: SET_CURSOR sends the address of the clamped row, CursorState takes the clamped row and the column as given, nothing else changes. -/
def Obligations.SetCursorCompletes : Prop :=
  ∀ (s : State) (col row : Byte), s.phase = .ready → validGeometry s.columns s.rows →
    exec (.setCursor col row) s = .next { s with
      curLine := clampedRow s.rows row, curCol := col.toNat,
      trace := s.trace ++ traceC (addressByte s.rows col row), responses := s.responses ++ [.done] }

/-- The clamp law of R150: a row at or past `rows` acts as `rows - 1`; and for a row inside, the 7-bit address sent is row base plus column mod 128. -/
def Obligations.RowClampLaw : Prop :=
  ∀ (s t : State) (col row : Byte), s.phase = .ready → validGeometry s.columns s.rows →
    (s.rows ≤ row → exec (.setCursor col row) s = exec (.setCursor col (s.rows - 1#8)) s) ∧
    (row < s.rows → exec (.setCursor col row) s = .next t →
      ∃ v : Byte, sentBytes (t.trace.drop s.trace.length) = some [⟨false, v⟩] ∧ v.getLsbD 7 = true ∧
        v.toNat % 128 = ([0x00, 0x40, 0x14, 0x54].getD row.toNat 0 + col.toNat) % 128)

/-- R152, R153: CLEAR sends 0x01, HOME sends 0x02; both wait `T_CLEAR` and set CursorState to (0,0) (`CLEAR_SYNCS_CURSOR` true); nothing else changes. -/
def Obligations.ClearAndHomeComplete : Prop :=
  ∀ s : State, s.phase = .ready →
    exec .clear s = .next { s with
      curLine := 0#8, curCol := 0, trace := s.trace ++ (traceC 0x01#8 ++ [.wait .clear]), responses := s.responses ++ [.done] } ∧
    exec .home s = .next { s with
      curLine := 0#8, curCol := 0, trace := s.trace ++ (traceC 0x02#8 ++ [.wait .clear]), responses := s.responses ++ [.done] }

/-- R154, R155: the scrolls send 0x18 and 0x1C and change no register. -/
def Obligations.ScrollsComplete : Prop :=
  ∀ s : State, s.phase = .ready →
    exec .scrollLeft s = .next { s with trace := s.trace ++ traceC 0x18#8, responses := s.responses ++ [.done] } ∧
    exec .scrollRight s = .next { s with trace := s.trace ++ traceC 0x1C#8, responses := s.responses ++ [.done] }

-- CUSTOM CHARACTERS, BACKLIGHT

/-- R160: CREATE_CHAR sends the CGRAM address of the slot's low three bits, the eight rows as given, then 0x80; CursorState is (0,0); 200 events. -/
def Obligations.CreateCharCompletes : Prop :=
  ∀ (s : State) (slot : Byte) (glyph : List Byte), s.phase = .ready → validGeometry s.columns s.rows → glyph.length = 8 →
    exec (.createChar slot glyph) s = .next { s with
      curLine := 0#8, curCol := 0,
      trace := s.trace ++ (traceC (0x40#8 + BitVec.ofNat 8 (slot.toNat % 8 * 8)) ++ glyph.flatMap traceD ++ traceC 0x80#8),
      responses := s.responses ++ [.done] } ∧
    (traceC (0x40#8 + BitVec.ofNat 8 (slot.toNat % 8 * 8)) ++ glyph.flatMap traceD ++ traceC 0x80#8).length = 200

/-- R161, R87: SET_BACKLIGHT writes the three lines, in order, Low where the colour bit is 1; bits 7:3 of the operand change nothing; no other effect.
The order of the three lines is R161's, which the spec calls its own (log 19). -/
def Obligations.SetBacklightCompletes : Prop :=
  ∀ (s : State) (colorCode : Byte), s.phase = .ready →
    exec (.setBacklight colorCode) s = .next { s with
      trace := s.trace ++ [ .write .bl0 (if colorCode.getLsbD 0 then .low else .high), .write .bl1 (if colorCode.getLsbD 1 then .low else .high),
                            .write .bl2 (if colorCode.getLsbD 2 then .low else .high) ],
      responses := s.responses ++ [.done] } ∧
    exec (.setBacklight (colorCode &&& 0x07#8)) s = exec (.setBacklight colorCode) s

-- PRINT

/-- R170: PRINT completes on every text in every READY state; only CursorState, the trace and the responses change, and the trace grows at its end. -/
def Obligations.PrintCompletes : Prop :=
  ∀ (s : State) (text : List Byte), s.phase = .ready →
    ∃ (line : Byte) (col : Int) (added : List Event),
      exec (.print text) s = .next { s with
        curLine := line, curCol := col, trace := s.trace ++ added, responses := s.responses ++ [.done] }

/-- R170: the empty text emits nothing and moves nothing; a printable byte in the row is sent as it is and the column steps once in the text's direction. -/
def Obligations.PrintWritesInRow : Prop :=
  ∀ (s : State) (ch : Byte), s.phase = .ready →
    exec (.print []) s = .next { s with responses := s.responses ++ [.done] } ∧
    (ch ≠ 0x0A#8 → 0 ≤ s.curCol → s.curCol ≤ (s.columns.toNat : Int) - 1 →
      exec (.print [ch]) s = .next { s with
        curCol := s.curCol + columnStep s, trace := s.trace ++ traceD ch, responses := s.responses ++ [.done] })

/-- R171: a newline advances the line by one (at most to 255), takes the reset column and sends the address of the clamped row, wherever the column was. -/
def Obligations.PrintNewline : Prop :=
  ∀ s : State, s.phase = .ready → validGeometry s.columns s.rows →
    exec (.print [0x0A#8]) s = .next { s with
      curLine := nextLine s.curLine, curCol := (resetColumn s).toNat,
      trace := s.trace ++ traceC (addressByte s.rows (resetColumn s) (nextLine s.curLine)), responses := s.responses ++ [.done] }

/-- R172: a printable byte with the column past either end of the row first wraps as a newline does, then is written and steps the column. -/
def Obligations.PrintWrapsLazily : Prop :=
  ∀ (s : State) (ch : Byte), s.phase = .ready → validGeometry s.columns s.rows → ch ≠ 0x0A#8 →
    (s.curCol < 0 ∨ (s.columns.toNat : Int) - 1 < s.curCol) →
    exec (.print [ch]) s = .next { s with
      curLine := nextLine s.curLine, curCol := (resetColumn s).toNat + columnStep s,
      trace := s.trace ++ (traceC (addressByte s.rows (resetColumn s) (nextLine s.curLine)) ++ traceD ch), responses := s.responses ++ [.done] }

/-- R173: one PRINT of a text equals consecutive PRINTs of its pieces, but for the extra response. -/
def Obligations.PrintOfPiecesEqualsPrint : Prop :=
  ∀ (s : State) (first second : List Byte), s.phase = .ready →
    ∃ m t, exec (.print first) s = .next m ∧ exec (.print second) m = .next { t with responses := t.responses ++ [.done] } ∧
      exec (.print (first ++ second)) s = .next t

/-- V4: left-to-right, a text that fills the row exactly is sent with no address command, and the next printable byte comes after the address of the next line's column 0. -/
def Obligations.PrintWrapsAtTheColumnsthByte : Prop :=
  ∀ (s : State) (text : List Byte) (ch : Byte), s.phase = .ready → validGeometry s.columns s.rows → s.em.getLsbD 1 = true →
    0 ≤ s.curCol → s.curCol + text.length = s.columns.toNat → 0x0A#8 ∉ text → ch ≠ 0x0A#8 →
    ∃ t u, exec (.print text) s = .next t ∧ exec (.print (text ++ [ch])) s = .next u ∧
      sentBytes (t.trace.drop s.trace.length) = some (text.map (⟨true, ·⟩)) ∧ t.curLine = s.curLine ∧ t.curCol = s.columns.toNat ∧
      sentBytes (u.trace.drop s.trace.length) =
        some (text.map (⟨true, ·⟩) ++ [⟨false, addressByte s.rows 0#8 (nextLine s.curLine)⟩, ⟨true, ch⟩]) ∧
      u.curLine = nextLine s.curLine ∧ u.curCol = 1

/-- R170, R83: in every READY state the data bytes PRINT sends are the text's bytes other than 0x0A, unchanged and in order, and all it sends is whole bytes. -/
def Obligations.PrintSendsTextUnchanged : Prop :=
  ∀ (s t : State) (text : List Byte), exec (.print text) s = .next t →
    ∃ sent, sentBytes (t.trace.drop s.trace.length) = some sent ∧
      ((sent.filter (·.isData)).map (·.value)) = text.filter (fun ch => decide (ch ≠ 0x0A#8)) ∧
      (t.trace.drop s.trace.length).length = 20 * sent.length

/-- R173, R174: once the line is at the last row or past it, every address PRINT sends is the last row at the reset column, and the line never falls. -/
def Obligations.PrintPinsToLastRow : Prop :=
  ∀ (s t : State) (text : List Byte), validGeometry s.columns s.rows → s.rows - 1#8 ≤ s.curLine → exec (.print text) s = .next t →
    s.curLine ≤ t.curLine ∧
    ∃ sent, sentBytes (t.trace.drop s.trace.length) = some sent ∧
      ∀ b ∈ sent, b.isData = false → b.value = addressByte s.rows (resetColumn s) (s.rows - 1#8)

/-- V5: after CREATE_CHAR, printing the slot's code sends that byte alone and leaves the cursor one column from (0,0) in the text's direction. -/
def Obligations.CreateCharThenPrint : Prop :=
  ∀ (s : State) (slot : Byte) (glyph : List Byte), s.phase = .ready → validGeometry s.columns s.rows → glyph.length = 8 → slot < 8#8 →
    ∃ t u, exec (.createChar slot glyph) s = .next t ∧ exec (.print [slot]) t = .next u ∧
      u.trace = t.trace ++ traceD slot ∧ u.curLine = 0#8 ∧ u.curCol = columnStep s

-- BUTTONS

/-- R180: READ_BUTTONS completes in every READY state with five reads in order; the mask is the OR of the masks of the lines that read Low; no register changes.
Where State lists five levels, those are the levels read. The order is R180's, which the spec calls its own (log 19); the list is the model's form of the input (log 4). -/
def Obligations.ReadButtonsCompletes : Prop :=
  ∀ s : State, s.phase = .ready →
    (∃ (u d l r e : Level) (t : State), exec .readButtons s = .next t ∧
      t.trace = s.trace ++ [.read .btnUp u, .read .btnDown d, .read .btnLeft l, .read .btnRight r, .read .btnSelect e] ∧
      t.responses = s.responses ++ [.doneMask
        ((if u = .low then Pin.mask .btnUp else 0#5) ||| (if d = .low then Pin.mask .btnDown else 0#5) ||| (if l = .low then Pin.mask .btnLeft else 0#5)
          ||| (if r = .low then Pin.mask .btnRight else 0#5) ||| (if e = .low then Pin.mask .btnSelect else 0#5))] ∧
      { t with trace := s.trace, responses := s.responses, lineLevels := s.lineLevels, draws := s.draws } = s) ∧
    (∀ (u d l r e : Level) (later : List Level), s.lineLevels = u :: d :: l :: r :: e :: later →
      exec .readButtons s = .next { s with
        lineLevels := later,
        trace := s.trace ++ [.read .btnUp u, .read .btnDown d, .read .btnLeft l, .read .btnRight r, .read .btnSelect e],
        responses := s.responses ++ [.doneMask
          ((if u = .low then Pin.mask .btnUp else 0#5) ||| (if d = .low then Pin.mask .btnDown else 0#5) ||| (if l = .low then Pin.mask .btnLeft else 0#5)
            ||| (if r = .low then Pin.mask .btnRight else 0#5) ||| (if e = .low then Pin.mask .btnSelect else 0#5))] })

/-- R88: each button line is read with one level, the mask returned is the OR of the masks of the lines that read Low (0 if all five read High), and the five masks are one-hot in
the low five bits and distinct; together they are 0x1F. It holds of every assignment of the masks, which are open (log 15). -/
def Obligations.ButtonMasksAreDistinctOneHot : Prop :=
  (∀ p ∈ buttonLines, ∃ k < 5, p.mask = 1#5 <<< k) ∧
  (∀ p ∈ buttonLines, ∀ q ∈ buttonLines, p.mask = q.mask → p = q) ∧
  Pin.mask .btnUp ||| Pin.mask .btnDown ||| Pin.mask .btnLeft ||| Pin.mask .btnRight ||| Pin.mask .btnSelect = 0x1F#5 ∧
  (∀ s t : State, exec .readButtons s = .next t →
    let read := t.trace.drop s.trace.length
    (∀ p ∈ buttonLines, ∃ l, .read p l ∈ read ∧ ∀ l', .read p l' ∈ read → l' = l) ∧
    t.responses = s.responses ++
      [.doneMask (((buttonLines.filter (fun p => decide (.read p .low ∈ read))).map Pin.mask).foldl (· ||| ·) 0#5)] ∧
    ((∀ p ∈ buttonLines, .read p .high ∈ read) → t.responses = s.responses ++ [.doneMask 0#5]))

/-- R45, R180: the levels of the button lines reach nothing but READ_BUTTONS: any other instruction does the same whatever they are. -/
def Obligations.LevelsReachOnlyReadButtons : Prop :=
  ∀ (i : Instr) (s : State) (levels : List Level), i ≠ .readButtons →
    exec i { s with lineLevels := levels } = mapNext (fun t => { t with lineLevels := levels }) (exec i s)

-- EMITTED ROWS

/-- R75 to R84: each emitted row, as a unit of its own, completes in every phase but FAULT (the model's choice, log 9): the byte of its bit pattern with RS Low (LCD.DATA High),
the long wait after 0x01 and 0x02, the nibble 001n alone; only the trace changes. In FAULT no event is emitted (R196): the row is refused (the form is log 9's). -/
def Obligations.EmittedRowsComplete : Prop :=
  (∀ s : State, s.phase ≠ .fault →
      exec .lcdClearDisplay s = .next { s with trace := s.trace ++ (traceC 0b00000001#8 ++ [.wait .clear]) } ∧
      exec .lcdReturnHome s = .next { s with trace := s.trace ++ (traceC 0b00000010#8 ++ [.wait .clear]) } ∧
      (∀ i h, exec (.lcdEntryModeSet i h) s = .next { s with trace := s.trace ++ traceC (0b000001#6 ++ BitVec.ofBool i ++ BitVec.ofBool h) }) ∧
      (∀ d c b, exec (.lcdDisplayControl d c b) s = .next { s with
        trace := s.trace ++ traceC (0b00001#5 ++ BitVec.ofBool d ++ BitVec.ofBool c ++ BitVec.ofBool b) }) ∧
      (∀ sc rl, exec (.lcdCursorShift sc rl) s = .next { s with trace := s.trace ++ traceC (0b0001#4 ++ BitVec.ofBool sc ++ BitVec.ofBool rl ++ 0b00#2) }) ∧
      (∀ dl n f, exec (.lcdFunctionSet dl n f) s = .next { s with
        trace := s.trace ++ traceC (0b001#3 ++ BitVec.ofBool dl ++ BitVec.ofBool n ++ BitVec.ofBool f ++ 0b00#2) }) ∧
      (∀ addr : BitVec 6, exec (.lcdSetCgramAddr addr) s = .next { s with trace := s.trace ++ traceC (0b01#2 ++ addr) }) ∧
      (∀ addr : BitVec 7, exec (.lcdSetDdramAddr addr) s = .next { s with trace := s.trace ++ traceC (0b1#1 ++ addr) }) ∧
      (∀ v, exec (.lcdData v) s = .next { s with trace := s.trace ++ traceD v }) ∧
      (∀ n, exec (.lcdInitNibble n) s = .next { s with trace := s.trace ++ traceNibble (0b001#3 ++ BitVec.ofBool n) })) ∧
  (∀ (s : State) (i : Instr), s.phase = .fault → i.isRequest = false → exec i s = .refused .inFault)

-- THE WHOLE MACHINE

/-- R74, R204: a request is refused exactly when its phase precondition or START's geometry fails, each under its own name; it never ends in a fault outcome, and otherwise it completes. -/
def Obligations.RequestsRefusedExactlyWhenSpecSays : Prop :=
  ∀ (i : Instr) (s : State), i.isRequest = true →
    (s.phase = .fault → exec i s = .refused .inFault) ∧
    (∀ cols rows, i = .start cols rows →
      (s.phase = .ready → exec i s = .refused .alreadyStarted) ∧
      (s.phase = .uninit → ¬ validGeometry cols rows → exec i s = .refused .badGeometry) ∧
      (s.phase = .uninit → validGeometry cols rows → ∃ t, exec i s = .next t)) ∧
    ((∀ cols rows, i ≠ .start cols rows) →
      (s.phase = .uninit → exec i s = .refused .notStarted) ∧
      (s.phase = .ready → ∃ t, exec i s = .next t))

/-- R21, R192, R196, R210: UNINIT is left only by START (to READY or FAULT) and READY and FAULT only by a scheduled reset, whatever instruction or unit a step runs. -/
def Obligations.PhaseChangesOnlyByStartOrReset : Prop :=
  ∀ s t : State, step s = .next t → t.phase ≠ s.phase →
    (s.phase = .uninit ∧ ∃ cols rows rest, decodeRequest s.requests = .ok (.start cols rows, rest)) ∨
    (s.phase ≠ .uninit ∧ t.phase = .uninit ∧ ∃ k, s.interruption = some (.resetAfter k))

/-- R20's "written by" column, R32: a register changes only under an operation listed for it. -/
def Obligations.RegistersHaveOnlyListedWriters : Prop :=
  ∀ (i : Instr) (s t : State), exec i s = .next t →
    let start := ∃ cols rows, i = .start cols rows
    (t.phase ≠ s.phase ∨ t.faultCode ≠ s.faultCode ∨ t.columns ≠ s.columns ∨ t.rows ≠ s.rows ∨ t.fs ≠ s.fs → start) ∧
    (t.curLine ≠ s.curLine ∨ t.curCol ≠ s.curCol →
      start ∨ i = .clear ∨ i = .home ∨ (∃ c r, i = .setCursor c r) ∨ (∃ slot g, i = .createChar slot g) ∨ ∃ x, i = .print x) ∧
    (t.dc ≠ s.dc → start ∨ i ∈ [Instr.displayOn, .displayOff, .cursorOn, .cursorOff, .blinkOn, .blinkOff]) ∧
    (t.em ≠ s.em → start ∨ i ∈ [Instr.leftToRight, .rightToLeft, .autoscrollOn, .autoscrollOff]) ∧
    t.microStep = s.microStep ∧ t.requests = s.requests ∧ t.interruption = s.interruption

/-- R33 (b): no rule reads the trace or the responses: an instruction does the same from an empty history, and only adds to the end of each. -/
def Obligations.HistoryIsNeverRead : Prop :=
  ∀ (i : Instr) (s : State),
    exec i s = mapNext (fun t => { t with trace := s.trace ++ t.trace, responses := s.responses ++ t.responses })
      (exec i { s with trace := [], responses := [] })

/-- R36: at reset the phase is UNINIT, the fault code 0, nothing has been emitted or answered and no unit is held. -/
def Obligations.ResetStateAsSpecified : Prop :=
  Sys2Proof.core.reset.phase = .uninit ∧ Sys2Proof.core.reset.faultCode = 0#2 ∧ Sys2Proof.core.reset.trace = [] ∧
  Sys2Proof.core.reset.responses = [] ∧ Sys2Proof.core.reset.microStep = none

/-- The three invariants below hold at reset. -/
def Obligations.InvariantsHoldAtReset : Prop :=
  RegistersLegal State.reset ∧ (∀ e ∈ State.reset.trace, legalEvent e) ∧ LinesConfigured State.reset

/-- R22, R23, R25 to R27, R37: from every state with legal registers, every step, interrupted or not, leaves legal registers. -/
def Obligations.EveryStepKeepsRegistersLegal : Prop :=
  ∀ s t : State, RegistersLegal s → step s = .next t → RegistersLegal t

/-- R42 to R46, R107: every event any step emits is one the adapter contract allows: no line of the 8-bit bus, R/W never High, buttons only read. -/
def Obligations.EveryStepKeepsTraceLegal : Prop :=
  ∀ s t : State, (∀ e ∈ s.trace, legalEvent e) → step s = .next t → ∀ e ∈ t.trace, legalEvent e

/-- R44: the block writes only lines it has set to Output; every step keeps this, a reset in the middle of an operation included. -/
def Obligations.EveryStepKeepsLinesConfigured : Prop :=
  ∀ s t : State, LinesConfigured s → step s = .next t → LinesConfigured t

/-- V10, R100, R214: what an instruction adds to the trace is well pulsed: EN High is followed at once by its wait, EN Low and the settle wait, and no other line changes meanwhile. -/
def Obligations.AddedEventsAreWellPulsed : Prop :=
  ∀ (i : Instr) (s t : State), exec i s = .next t → ∃ added, t.trace = s.trace ++ added ∧ wellPulsed added

/-- R28: after an operation of a READY block with legal registers, every display-control and entry-mode byte it sent carries the shadow it leaves, it sent no function-set byte,
and a shadow it changed was sent. -/
def Obligations.ShadowsMatchWhatWasSent : Prop :=
  ∀ (i : Instr) (s t : State), s.phase = .ready → RegistersLegal s → i.isRequest = true → exec i s = .next t →
    ∃ sent, sentBytes (t.trace.drop s.trace.length) = some sent ∧
      (∀ b ∈ sent, b.isData = false →
        (b.value &&& 0xF8#8 = 0x08#8 → b.value &&& 0x07#8 = t.dc) ∧
        (b.value &&& 0xFC#8 = 0x04#8 → b.value &&& 0x03#8 = t.em) ∧
        b.value &&& 0xE0#8 ≠ 0x20#8) ∧
      (t.dc ≠ s.dc → ⟨false, 0x08#8 ||| t.dc⟩ ∈ sent) ∧ (t.em ≠ s.em → ⟨false, 0x04#8 ||| t.em⟩ ∈ sent) ∧ t.fs = s.fs

/-- R86: every command byte an operation of a READY block sends is a row of the table, and never a cursor move or a function set. -/
def Obligations.ReservedCommandBytesNeverSent : Prop :=
  ∀ (i : Instr) (s t : State) (sent : List SentByte), s.phase = .ready → RegistersLegal s → i.isRequest = true → exec i s = .next t →
    sentBytes (t.trace.drop s.trace.length) = some sent →
    ∀ b ∈ sent, b.isData = false →
      ∃ row, decodeUnit (.command b.value) = .ok row ∧ (∀ rl, row ≠ .lcdCursorShift false rl) ∧ (∀ dl n f, row ≠ .lcdFunctionSet dl n f)

/-- R196: in FAULT every instruction is refused, request or emitted row, and no step but a reset changes anything, whatever waits on the port or is held; the reset input then
leaves UNINIT with fault code 0, having emitted and answered nothing, and START can run. That an idle step waits is log 25's choice, that an emitted row is refused log 9's, that the
reset keeps the trace and the responses log 2's, and the form of the scheduled reset log 12's. -/
def Obligations.FaultIsSticky : Prop :=
  ∀ s : State, s.phase = .fault →
    (∀ i : Instr, exec i s = .refused .inFault) ∧
    (s.interruption ≠ some (.resetAfter 0) →
      (∃ r, step s = .refused r) ∨ (step s = .next s ∧ s.microStep = none ∧ decodeRequest s.requests = .error .incomplete)) ∧
    (s.interruption = some (.resetAfter 0) →
      ∃ t, step s = .next t ∧ t.phase = .uninit ∧ t.faultCode = 0#2 ∧ t.trace = s.trace ∧ t.responses = s.responses ∧
        ∀ cols rows, validGeometry cols rows → ∃ u, exec (.start cols rows) t = .next u)

/-- R220: the least waits of every operation, with `byteWait` = 2 P: START 50 ms and its synchronisation waits and 14 P, CLEAR and HOME 2 ms and 2 P, CREATE_CHAR 20 P, one byte 2 P
each for the toggles, SET_CURSOR, the scrolls and PRINT, none for SET_BACKLIGHT and READ_BUTTONS. -/
def Obligations.OperationsKeepLeastWaits : Prop :=
  ∀ (i : Instr) (s t : State), i.isRequest = true → i.wellFormed = true → t.phase = .ready → exec i s = .next t →
    let waited := leastDuration (t.trace.drop s.trace.length)
    ((∃ cols rows, i = .start cols rows) →
      waited = Timer.powerOn.nanoseconds + Timer.sync1.nanoseconds + Timer.sync2.nanoseconds + Timer.sync3.nanoseconds
        + Timer.clear.nanoseconds + 7 * byteWait ∧ 60824300 ≤ waited) ∧
    (i = .clear ∨ i = .home → waited = Timer.clear.nanoseconds + byteWait ∧ 2074900 ≤ waited) ∧
    ((∃ slot g, i = .createChar slot g) → waited = 10 * byteWait ∧ 749000 ≤ waited) ∧
    (i ∈ [Instr.displayOn, .displayOff, .cursorOn, .cursorOff, .blinkOn, .blinkOff, .scrollLeft, .scrollRight, .leftToRight, .rightToLeft,
        .autoscrollOn, .autoscrollOff] ∨ (∃ c r, i = .setCursor c r) → waited = byteWait ∧ 74900 ≤ waited) ∧
    ((∃ x, i = .print x) → ∃ sent, sentBytes (t.trace.drop s.trace.length) = some sent ∧ waited = sent.length * byteWait) ∧
    (i = .readButtons ∨ (∃ c, i = .setBacklight c) → waited = 0)

/-- R6, R214: the durations: two fixed values and the minimums of the others, whatever the open amounts are. -/
def Obligations.DurationsMeetMinimums : Prop :=
  Timer.powerOn.nanoseconds = 50000000 ∧ Timer.clear.nanoseconds = 2000000 ∧
  4100000 ≤ Timer.sync1.nanoseconds ∧ 4100000 ≤ Timer.sync2.nanoseconds ∧ 100000 ≤ Timer.sync3.nanoseconds ∧
  450 ≤ Timer.enHigh.nanoseconds ∧ 37000 ≤ Timer.settle.nanoseconds

/-- R53: the fifteen pins of this hardware are on fifteen distinct lines of 0..15 and exactly one line is unassigned, whatever the pin map is.
That the lines D0 to D3 of the 8-bit bus, which R6 says do not exist here, are pins without a line is the model's form (log 27). -/
def Obligations.PinMapIsInjective : Prop :=
  (∀ p ∈ outputLines ++ buttonLines, p.line ≠ none) ∧
  (∀ p ∈ outputLines ++ buttonLines, ∀ q ∈ outputLines ++ buttonLines, p.line = q.line → p = q) ∧
  (∃ free : Fin 16, (∀ p : Pin, p.line ≠ some free) ∧ ∀ n : Fin 16, n ≠ free → ∃ p : Pin, p.line = some n) ∧
  (∀ p ∈ [Pin.d0, .d1, .d2, .d3], p.line = none)

/-- R43: `pullUp` is called in no operation but START, only on the five button lines and only to enable, and a START that ends READY has called it on all five; the call cannot
fail, and it sets the pull-up of its own line in the reference pin bank (R48) and no other. -/
def Obligations.PullUpsOnlyInStart : Prop :=
  (∀ (i : Instr) (s t : State), exec i s = .next t →
    ∃ added, t.trace = s.trace ++ added ∧
      (∀ p e, .pull p e ∈ added → (∃ cols rows, i = .start cols rows) ∧ p ∈ buttonLines ∧ e = true) ∧
      ((∃ cols rows, i = .start cols rows) → t.phase = .ready → ∀ p ∈ buttonLines, .pull p true ∈ added)) ∧
  (∀ p e, (Event.pull p e).canFail = false) ∧
  (∀ (events : List Event) (p q : Pin) (e : Bool) (before : Option Bool),
    linePull p (events ++ [.pull q e]) before = if q = p then some e else linePull p events before)
end

