-- ==== Sys2Proof/Laws/State.lean ====
section
/-! SUPPORT. One lemma per field per shared update, so that no proof unfolds a record update. -/

namespace Sys2Proof.Machine

-- emit
@[simp] theorem State.emit_phase (evs : List Event) (s : State) : (s.emit evs).phase = s.phase := rfl
@[simp] theorem State.emit_faultCode (evs : List Event) (s : State) : (s.emit evs).faultCode = s.faultCode := rfl
@[simp] theorem State.emit_columns (evs : List Event) (s : State) : (s.emit evs).columns = s.columns := rfl
@[simp] theorem State.emit_rows (evs : List Event) (s : State) : (s.emit evs).rows = s.rows := rfl
@[simp] theorem State.emit_curLine (evs : List Event) (s : State) : (s.emit evs).curLine = s.curLine := rfl
@[simp] theorem State.emit_curCol (evs : List Event) (s : State) : (s.emit evs).curCol = s.curCol := rfl
@[simp] theorem State.emit_fs (evs : List Event) (s : State) : (s.emit evs).fs = s.fs := rfl
@[simp] theorem State.emit_dc (evs : List Event) (s : State) : (s.emit evs).dc = s.dc := rfl
@[simp] theorem State.emit_em (evs : List Event) (s : State) : (s.emit evs).em = s.em := rfl
@[simp] theorem State.emit_microStep (evs : List Event) (s : State) : (s.emit evs).microStep = s.microStep := rfl
@[simp] theorem State.emit_trace (evs : List Event) (s : State) : (s.emit evs).trace = s.trace ++ evs := rfl
@[simp] theorem State.emit_responses (evs : List Event) (s : State) : (s.emit evs).responses = s.responses := rfl
@[simp] theorem State.emit_requests (evs : List Event) (s : State) : (s.emit evs).requests = s.requests := rfl
@[simp] theorem State.emit_adapterAnswers (evs : List Event) (s : State) : (s.emit evs).adapterAnswers = s.adapterAnswers := rfl
@[simp] theorem State.emit_lineLevels (evs : List Event) (s : State) : (s.emit evs).lineLevels = s.lineLevels := rfl
@[simp] theorem State.emit_draws (evs : List Event) (s : State) : (s.emit evs).draws = s.draws := rfl
@[simp] theorem State.emit_interruption (evs : List Event) (s : State) : (s.emit evs).interruption = s.interruption := rfl

-- respond
@[simp] theorem State.respond_phase (r : Response) (s : State) : (s.respond r).phase = s.phase := rfl
@[simp] theorem State.respond_faultCode (r : Response) (s : State) : (s.respond r).faultCode = s.faultCode := rfl
@[simp] theorem State.respond_columns (r : Response) (s : State) : (s.respond r).columns = s.columns := rfl
@[simp] theorem State.respond_rows (r : Response) (s : State) : (s.respond r).rows = s.rows := rfl
@[simp] theorem State.respond_curLine (r : Response) (s : State) : (s.respond r).curLine = s.curLine := rfl
@[simp] theorem State.respond_curCol (r : Response) (s : State) : (s.respond r).curCol = s.curCol := rfl
@[simp] theorem State.respond_fs (r : Response) (s : State) : (s.respond r).fs = s.fs := rfl
@[simp] theorem State.respond_dc (r : Response) (s : State) : (s.respond r).dc = s.dc := rfl
@[simp] theorem State.respond_em (r : Response) (s : State) : (s.respond r).em = s.em := rfl
@[simp] theorem State.respond_microStep (r : Response) (s : State) : (s.respond r).microStep = s.microStep := rfl
@[simp] theorem State.respond_trace (r : Response) (s : State) : (s.respond r).trace = s.trace := rfl
@[simp] theorem State.respond_responses (r : Response) (s : State) : (s.respond r).responses = s.responses ++ [r] := rfl
@[simp] theorem State.respond_requests (r : Response) (s : State) : (s.respond r).requests = s.requests := rfl
@[simp] theorem State.respond_adapterAnswers (r : Response) (s : State) : (s.respond r).adapterAnswers = s.adapterAnswers := rfl
@[simp] theorem State.respond_lineLevels (r : Response) (s : State) : (s.respond r).lineLevels = s.lineLevels := rfl
@[simp] theorem State.respond_draws (r : Response) (s : State) : (s.respond r).draws = s.draws := rfl
@[simp] theorem State.respond_interruption (r : Response) (s : State) : (s.respond r).interruption = s.interruption := rfl

-- command
@[simp] theorem State.command_phase (v : Byte) (s : State) : (s.command v).phase = s.phase := rfl
@[simp] theorem State.command_faultCode (v : Byte) (s : State) : (s.command v).faultCode = s.faultCode := rfl
@[simp] theorem State.command_columns (v : Byte) (s : State) : (s.command v).columns = s.columns := rfl
@[simp] theorem State.command_rows (v : Byte) (s : State) : (s.command v).rows = s.rows := rfl
@[simp] theorem State.command_curLine (v : Byte) (s : State) : (s.command v).curLine = s.curLine := rfl
@[simp] theorem State.command_curCol (v : Byte) (s : State) : (s.command v).curCol = s.curCol := rfl
@[simp] theorem State.command_fs (v : Byte) (s : State) : (s.command v).fs = s.fs := rfl
@[simp] theorem State.command_dc (v : Byte) (s : State) : (s.command v).dc = s.dc := rfl
@[simp] theorem State.command_em (v : Byte) (s : State) : (s.command v).em = s.em := rfl
@[simp] theorem State.command_microStep (v : Byte) (s : State) : (s.command v).microStep = s.microStep := rfl
@[simp] theorem State.command_trace (v : Byte) (s : State) : (s.command v).trace = s.trace ++ Machine.command v := rfl
@[simp] theorem State.command_responses (v : Byte) (s : State) : (s.command v).responses = s.responses := rfl
@[simp] theorem State.command_requests (v : Byte) (s : State) : (s.command v).requests = s.requests := rfl
@[simp] theorem State.command_adapterAnswers (v : Byte) (s : State) : (s.command v).adapterAnswers = s.adapterAnswers := rfl
@[simp] theorem State.command_lineLevels (v : Byte) (s : State) : (s.command v).lineLevels = s.lineLevels := rfl
@[simp] theorem State.command_draws (v : Byte) (s : State) : (s.command v).draws = s.draws := rfl
@[simp] theorem State.command_interruption (v : Byte) (s : State) : (s.command v).interruption = s.interruption := rfl

-- data
@[simp] theorem State.data_phase (v : Byte) (s : State) : (s.data v).phase = s.phase := rfl
@[simp] theorem State.data_faultCode (v : Byte) (s : State) : (s.data v).faultCode = s.faultCode := rfl
@[simp] theorem State.data_columns (v : Byte) (s : State) : (s.data v).columns = s.columns := rfl
@[simp] theorem State.data_rows (v : Byte) (s : State) : (s.data v).rows = s.rows := rfl
@[simp] theorem State.data_curLine (v : Byte) (s : State) : (s.data v).curLine = s.curLine := rfl
@[simp] theorem State.data_curCol (v : Byte) (s : State) : (s.data v).curCol = s.curCol := rfl
@[simp] theorem State.data_fs (v : Byte) (s : State) : (s.data v).fs = s.fs := rfl
@[simp] theorem State.data_dc (v : Byte) (s : State) : (s.data v).dc = s.dc := rfl
@[simp] theorem State.data_em (v : Byte) (s : State) : (s.data v).em = s.em := rfl
@[simp] theorem State.data_microStep (v : Byte) (s : State) : (s.data v).microStep = s.microStep := rfl
@[simp] theorem State.data_trace (v : Byte) (s : State) : (s.data v).trace = s.trace ++ Machine.data v := rfl
@[simp] theorem State.data_responses (v : Byte) (s : State) : (s.data v).responses = s.responses := rfl
@[simp] theorem State.data_requests (v : Byte) (s : State) : (s.data v).requests = s.requests := rfl
@[simp] theorem State.data_adapterAnswers (v : Byte) (s : State) : (s.data v).adapterAnswers = s.adapterAnswers := rfl
@[simp] theorem State.data_lineLevels (v : Byte) (s : State) : (s.data v).lineLevels = s.lineLevels := rfl
@[simp] theorem State.data_draws (v : Byte) (s : State) : (s.data v).draws = s.draws := rfl
@[simp] theorem State.data_interruption (v : Byte) (s : State) : (s.data v).interruption = s.interruption := rfl

-- moveCursor
@[simp] theorem State.moveCursor_phase (line : Byte) (col : Int) (s : State) : (s.moveCursor line col).phase = s.phase := rfl
@[simp] theorem State.moveCursor_faultCode (line : Byte) (col : Int) (s : State) : (s.moveCursor line col).faultCode = s.faultCode := rfl
@[simp] theorem State.moveCursor_columns (line : Byte) (col : Int) (s : State) : (s.moveCursor line col).columns = s.columns := rfl
@[simp] theorem State.moveCursor_rows (line : Byte) (col : Int) (s : State) : (s.moveCursor line col).rows = s.rows := rfl
@[simp] theorem State.moveCursor_curLine (line : Byte) (col : Int) (s : State) : (s.moveCursor line col).curLine = line := rfl
@[simp] theorem State.moveCursor_curCol (line : Byte) (col : Int) (s : State) : (s.moveCursor line col).curCol = col := rfl
@[simp] theorem State.moveCursor_fs (line : Byte) (col : Int) (s : State) : (s.moveCursor line col).fs = s.fs := rfl
@[simp] theorem State.moveCursor_dc (line : Byte) (col : Int) (s : State) : (s.moveCursor line col).dc = s.dc := rfl
@[simp] theorem State.moveCursor_em (line : Byte) (col : Int) (s : State) : (s.moveCursor line col).em = s.em := rfl
@[simp] theorem State.moveCursor_microStep (line : Byte) (col : Int) (s : State) : (s.moveCursor line col).microStep = s.microStep := rfl
@[simp] theorem State.moveCursor_trace (line : Byte) (col : Int) (s : State) : (s.moveCursor line col).trace = s.trace := rfl
@[simp] theorem State.moveCursor_responses (line : Byte) (col : Int) (s : State) : (s.moveCursor line col).responses = s.responses := rfl
@[simp] theorem State.moveCursor_requests (line : Byte) (col : Int) (s : State) : (s.moveCursor line col).requests = s.requests := rfl
@[simp] theorem State.moveCursor_adapterAnswers (line : Byte) (col : Int) (s : State) : (s.moveCursor line col).adapterAnswers = s.adapterAnswers := rfl
@[simp] theorem State.moveCursor_lineLevels (line : Byte) (col : Int) (s : State) : (s.moveCursor line col).lineLevels = s.lineLevels := rfl
@[simp] theorem State.moveCursor_draws (line : Byte) (col : Int) (s : State) : (s.moveCursor line col).draws = s.draws := rfl
@[simp] theorem State.moveCursor_interruption (line : Byte) (col : Int) (s : State) : (s.moveCursor line col).interruption = s.interruption := rfl

-- setCursor
@[simp] theorem State.setCursor_phase (c r : Byte) (s : State) : (s.setCursor c r).phase = s.phase := rfl
@[simp] theorem State.setCursor_faultCode (c r : Byte) (s : State) : (s.setCursor c r).faultCode = s.faultCode := rfl
@[simp] theorem State.setCursor_columns (c r : Byte) (s : State) : (s.setCursor c r).columns = s.columns := rfl
@[simp] theorem State.setCursor_rows (c r : Byte) (s : State) : (s.setCursor c r).rows = s.rows := rfl
@[simp] theorem State.setCursor_curLine (c r : Byte) (s : State) : (s.setCursor c r).curLine = clampRow s.rows r := rfl
@[simp] theorem State.setCursor_curCol (c r : Byte) (s : State) : (s.setCursor c r).curCol = (c.toNat : Int) := rfl
@[simp] theorem State.setCursor_fs (c r : Byte) (s : State) : (s.setCursor c r).fs = s.fs := rfl
@[simp] theorem State.setCursor_dc (c r : Byte) (s : State) : (s.setCursor c r).dc = s.dc := rfl
@[simp] theorem State.setCursor_em (c r : Byte) (s : State) : (s.setCursor c r).em = s.em := rfl
@[simp] theorem State.setCursor_microStep (c r : Byte) (s : State) : (s.setCursor c r).microStep = s.microStep := rfl
@[simp] theorem State.setCursor_trace (c r : Byte) (s : State) : (s.setCursor c r).trace = s.trace ++ Machine.command (ddramByte s.rows c r) := rfl
@[simp] theorem State.setCursor_responses (c r : Byte) (s : State) : (s.setCursor c r).responses = s.responses := rfl
@[simp] theorem State.setCursor_requests (c r : Byte) (s : State) : (s.setCursor c r).requests = s.requests := rfl
@[simp] theorem State.setCursor_adapterAnswers (c r : Byte) (s : State) : (s.setCursor c r).adapterAnswers = s.adapterAnswers := rfl
@[simp] theorem State.setCursor_lineLevels (c r : Byte) (s : State) : (s.setCursor c r).lineLevels = s.lineLevels := rfl
@[simp] theorem State.setCursor_draws (c r : Byte) (s : State) : (s.setCursor c r).draws = s.draws := rfl
@[simp] theorem State.setCursor_interruption (c r : Byte) (s : State) : (s.setCursor c r).interruption = s.interruption := rfl

-- syncCursor
@[simp] theorem State.syncCursor_phase (s : State) : (s.syncCursor).phase = s.phase := rfl
@[simp] theorem State.syncCursor_faultCode (s : State) : (s.syncCursor).faultCode = s.faultCode := rfl
@[simp] theorem State.syncCursor_columns (s : State) : (s.syncCursor).columns = s.columns := rfl
@[simp] theorem State.syncCursor_rows (s : State) : (s.syncCursor).rows = s.rows := rfl
@[simp] theorem State.syncCursor_curLine (s : State) : (s.syncCursor).curLine = 0#8 := rfl
@[simp] theorem State.syncCursor_curCol (s : State) : (s.syncCursor).curCol = 0 := rfl
@[simp] theorem State.syncCursor_fs (s : State) : (s.syncCursor).fs = s.fs := rfl
@[simp] theorem State.syncCursor_dc (s : State) : (s.syncCursor).dc = s.dc := rfl
@[simp] theorem State.syncCursor_em (s : State) : (s.syncCursor).em = s.em := rfl
@[simp] theorem State.syncCursor_microStep (s : State) : (s.syncCursor).microStep = s.microStep := rfl
@[simp] theorem State.syncCursor_trace (s : State) : (s.syncCursor).trace = s.trace := rfl
@[simp] theorem State.syncCursor_responses (s : State) : (s.syncCursor).responses = s.responses := rfl
@[simp] theorem State.syncCursor_requests (s : State) : (s.syncCursor).requests = s.requests := rfl
@[simp] theorem State.syncCursor_adapterAnswers (s : State) : (s.syncCursor).adapterAnswers = s.adapterAnswers := rfl
@[simp] theorem State.syncCursor_lineLevels (s : State) : (s.syncCursor).lineLevels = s.lineLevels := rfl
@[simp] theorem State.syncCursor_draws (s : State) : (s.syncCursor).draws = s.draws := rfl
@[simp] theorem State.syncCursor_interruption (s : State) : (s.syncCursor).interruption = s.interruption := rfl

-- raiseIoError
@[simp] theorem State.raiseIoError_phase (s : State) : (s.raiseIoError).phase = .fault := rfl
@[simp] theorem State.raiseIoError_faultCode (s : State) : (s.raiseIoError).faultCode = 1#2 := rfl
@[simp] theorem State.raiseIoError_columns (s : State) : (s.raiseIoError).columns = s.columns := rfl
@[simp] theorem State.raiseIoError_rows (s : State) : (s.raiseIoError).rows = s.rows := rfl
@[simp] theorem State.raiseIoError_curLine (s : State) : (s.raiseIoError).curLine = s.curLine := rfl
@[simp] theorem State.raiseIoError_curCol (s : State) : (s.raiseIoError).curCol = s.curCol := rfl
@[simp] theorem State.raiseIoError_fs (s : State) : (s.raiseIoError).fs = s.fs := rfl
@[simp] theorem State.raiseIoError_dc (s : State) : (s.raiseIoError).dc = s.dc := rfl
@[simp] theorem State.raiseIoError_em (s : State) : (s.raiseIoError).em = s.em := rfl
@[simp] theorem State.raiseIoError_microStep (s : State) : (s.raiseIoError).microStep = s.microStep := rfl
@[simp] theorem State.raiseIoError_trace (s : State) : (s.raiseIoError).trace = s.trace := rfl
@[simp] theorem State.raiseIoError_responses (s : State) : (s.raiseIoError).responses = s.responses ++ [.fault 1#2] := rfl
@[simp] theorem State.raiseIoError_requests (s : State) : (s.raiseIoError).requests = s.requests := rfl
@[simp] theorem State.raiseIoError_adapterAnswers (s : State) : (s.raiseIoError).adapterAnswers = s.adapterAnswers := rfl
@[simp] theorem State.raiseIoError_lineLevels (s : State) : (s.raiseIoError).lineLevels = s.lineLevels := rfl
@[simp] theorem State.raiseIoError_draws (s : State) : (s.raiseIoError).draws = s.draws := rfl
@[simp] theorem State.raiseIoError_interruption (s : State) : (s.raiseIoError).interruption = s.interruption := rfl

-- resetBlock
@[simp] theorem State.resetBlock_phase (s : State) : (s.resetBlock).phase = .uninit := rfl
@[simp] theorem State.resetBlock_faultCode (s : State) : (s.resetBlock).faultCode = 0#2 := rfl
@[simp] theorem State.resetBlock_columns (s : State) : (s.resetBlock).columns = 0#8 := rfl
@[simp] theorem State.resetBlock_rows (s : State) : (s.resetBlock).rows = 0#8 := rfl
@[simp] theorem State.resetBlock_curLine (s : State) : (s.resetBlock).curLine = 0#8 := rfl
@[simp] theorem State.resetBlock_curCol (s : State) : (s.resetBlock).curCol = 0 := rfl
@[simp] theorem State.resetBlock_fs (s : State) : (s.resetBlock).fs = 0#8 := rfl
@[simp] theorem State.resetBlock_dc (s : State) : (s.resetBlock).dc = 0#8 := rfl
@[simp] theorem State.resetBlock_em (s : State) : (s.resetBlock).em = 0#8 := rfl
@[simp] theorem State.resetBlock_microStep (s : State) : (s.resetBlock).microStep = none := rfl
@[simp] theorem State.resetBlock_trace (s : State) : (s.resetBlock).trace = s.trace := rfl
@[simp] theorem State.resetBlock_responses (s : State) : (s.resetBlock).responses = s.responses := rfl
@[simp] theorem State.resetBlock_requests (s : State) : (s.resetBlock).requests = s.requests := rfl
@[simp] theorem State.resetBlock_adapterAnswers (s : State) : (s.resetBlock).adapterAnswers = s.adapterAnswers := rfl
@[simp] theorem State.resetBlock_lineLevels (s : State) : (s.resetBlock).lineLevels = s.lineLevels := rfl
@[simp] theorem State.resetBlock_draws (s : State) : (s.resetBlock).draws = s.draws := rfl
@[simp] theorem State.resetBlock_interruption (s : State) : (s.resetBlock).interruption = none := rfl

-- takeAnswer
@[simp] theorem State.takeAnswer_phase (s : State) : (s.takeAnswer).2.phase = s.phase := by unfold State.takeAnswer; split <;> rfl
@[simp] theorem State.takeAnswer_faultCode (s : State) : (s.takeAnswer).2.faultCode = s.faultCode := by unfold State.takeAnswer; split <;> rfl
@[simp] theorem State.takeAnswer_columns (s : State) : (s.takeAnswer).2.columns = s.columns := by unfold State.takeAnswer; split <;> rfl
@[simp] theorem State.takeAnswer_rows (s : State) : (s.takeAnswer).2.rows = s.rows := by unfold State.takeAnswer; split <;> rfl
@[simp] theorem State.takeAnswer_curLine (s : State) : (s.takeAnswer).2.curLine = s.curLine := by unfold State.takeAnswer; split <;> rfl
@[simp] theorem State.takeAnswer_curCol (s : State) : (s.takeAnswer).2.curCol = s.curCol := by unfold State.takeAnswer; split <;> rfl
@[simp] theorem State.takeAnswer_fs (s : State) : (s.takeAnswer).2.fs = s.fs := by unfold State.takeAnswer; split <;> rfl
@[simp] theorem State.takeAnswer_dc (s : State) : (s.takeAnswer).2.dc = s.dc := by unfold State.takeAnswer; split <;> rfl
@[simp] theorem State.takeAnswer_em (s : State) : (s.takeAnswer).2.em = s.em := by unfold State.takeAnswer; split <;> rfl
@[simp] theorem State.takeAnswer_microStep (s : State) : (s.takeAnswer).2.microStep = s.microStep := by unfold State.takeAnswer; split <;> rfl
@[simp] theorem State.takeAnswer_trace (s : State) : (s.takeAnswer).2.trace = s.trace := by unfold State.takeAnswer; split <;> rfl
@[simp] theorem State.takeAnswer_responses (s : State) : (s.takeAnswer).2.responses = s.responses := by unfold State.takeAnswer; split <;> rfl
@[simp] theorem State.takeAnswer_requests (s : State) : (s.takeAnswer).2.requests = s.requests := by unfold State.takeAnswer; split <;> rfl
@[simp] theorem State.takeAnswer_lineLevels (s : State) : (s.takeAnswer).2.lineLevels = s.lineLevels := by unfold State.takeAnswer; split <;> rfl
@[simp] theorem State.takeAnswer_interruption (s : State) : (s.takeAnswer).2.interruption = s.interruption := by unfold State.takeAnswer; split <;> rfl

-- takeLevel
@[simp] theorem State.takeLevel_phase (s : State) : (s.takeLevel).2.phase = s.phase := by unfold State.takeLevel; split <;> rfl
@[simp] theorem State.takeLevel_faultCode (s : State) : (s.takeLevel).2.faultCode = s.faultCode := by unfold State.takeLevel; split <;> rfl
@[simp] theorem State.takeLevel_columns (s : State) : (s.takeLevel).2.columns = s.columns := by unfold State.takeLevel; split <;> rfl
@[simp] theorem State.takeLevel_rows (s : State) : (s.takeLevel).2.rows = s.rows := by unfold State.takeLevel; split <;> rfl
@[simp] theorem State.takeLevel_curLine (s : State) : (s.takeLevel).2.curLine = s.curLine := by unfold State.takeLevel; split <;> rfl
@[simp] theorem State.takeLevel_curCol (s : State) : (s.takeLevel).2.curCol = s.curCol := by unfold State.takeLevel; split <;> rfl
@[simp] theorem State.takeLevel_fs (s : State) : (s.takeLevel).2.fs = s.fs := by unfold State.takeLevel; split <;> rfl
@[simp] theorem State.takeLevel_dc (s : State) : (s.takeLevel).2.dc = s.dc := by unfold State.takeLevel; split <;> rfl
@[simp] theorem State.takeLevel_em (s : State) : (s.takeLevel).2.em = s.em := by unfold State.takeLevel; split <;> rfl
@[simp] theorem State.takeLevel_microStep (s : State) : (s.takeLevel).2.microStep = s.microStep := by unfold State.takeLevel; split <;> rfl
@[simp] theorem State.takeLevel_trace (s : State) : (s.takeLevel).2.trace = s.trace := by unfold State.takeLevel; split <;> rfl
@[simp] theorem State.takeLevel_responses (s : State) : (s.takeLevel).2.responses = s.responses := by unfold State.takeLevel; split <;> rfl
@[simp] theorem State.takeLevel_requests (s : State) : (s.takeLevel).2.requests = s.requests := by unfold State.takeLevel; split <;> rfl
@[simp] theorem State.takeLevel_adapterAnswers (s : State) : (s.takeLevel).2.adapterAnswers = s.adapterAnswers := by unfold State.takeLevel; split <;> rfl
@[simp] theorem State.takeLevel_interruption (s : State) : (s.takeLevel).2.interruption = s.interruption := by unfold State.takeLevel; split <;> rfl

end Sys2Proof.Machine
end

