-- ==== Sys2Proof/Laws/Ops.lean ====
section
/-! SUPPORT. One lemma per shared operation that says all it can do; the inversion of `fetch`, of an interruption and of `step`. -/

namespace Sys2Proof.Machine

theorem whenReady_of_ready {s : State} {f : State → State} (h : s.phase = .ready) : whenReady s f = .next (f s) := by
  unfold whenReady; rw [h]

theorem whenReady_of_uninit {s : State} {f : State → State} (h : s.phase = .uninit) : whenReady s f = .refused .notStarted := by
  unfold whenReady; rw [h]

theorem whenReady_of_fault {s : State} {f : State → State} (h : s.phase = .fault) : whenReady s f = .refused .inFault := by
  unfold whenReady; rw [h]

/-- An operation with the precondition READY completes exactly in READY, with its effect. -/
theorem whenReady_eq_next {s t : State} {f : State → State} : whenReady s f = .next t ↔ s.phase = .ready ∧ t = f s := by
  cases h : s.phase with
  | ready => rw [whenReady_of_ready h]; simp [eq_comm]
  | uninit => rw [whenReady_of_uninit h]; simp
  | fault => rw [whenReady_of_fault h]; simp

theorem unlessFault_of_fault {s : State} {f : State → State} (h : s.phase = .fault) : unlessFault s f = .refused .inFault := by
  unfold unlessFault; rw [h]

theorem unlessFault_of_running {s : State} {f : State → State} (h : s.phase ≠ .fault) : unlessFault s f = .next (f s) := by
  unfold unlessFault; split <;> first | rfl | exact absurd ‹_› h

/-- An emitted row completes exactly outside FAULT, with its effect (R196). -/
theorem unlessFault_eq_next {s t : State} {f : State → State} : unlessFault s f = .next t ↔ s.phase ≠ .fault ∧ t = f s := by
  by_cases h : s.phase = .fault
  · rw [unlessFault_of_fault h]; simp [h]
  · rw [unlessFault_of_running h]; simp [h, eq_comm]

theorem takeAnswer_cons {s : State} {a : AdapterAnswer} {rest : List AdapterAnswer} (h : s.adapterAnswers = a :: rest) :
    s.takeAnswer = (a, { s with adapterAnswers := rest }) := by
  unfold State.takeAnswer; rw [h]

theorem takeLevel_cons {s : State} {l : Level} {rest : List Level} (h : s.lineLevels = l :: rest) :
    s.takeLevel = (l, { s with lineLevels := rest }) := by
  unfold State.takeLevel; rw [h]

theorem emit_emit (a b : List Event) (s : State) : (s.emit a).emit b = s.emit (a ++ b) := by
  simp [State.emit]

theorem emit_nil (s : State) : s.emit [] = s := by simp [State.emit]

/-- Issuing calls appends a list of them, all if every answer was Ok; otherwise the last one issued failed. Nothing but the trace and the answers changes. -/
theorem issue_spec (calls : List Event) (s : State) :
    ∃ evs answers draws,
      (State.issue calls s).2 = { s with trace := s.trace ++ evs, adapterAnswers := answers, draws := draws } ∧
      evs <+: calls ∧ ((State.issue calls s).1 = true → evs = calls) ∧
      ((State.issue calls s).1 = false → ∃ before failing, evs = before ++ [failing] ∧ failing.canFail = true) := by
  induction calls generalizing s with
  | nil => exact ⟨[], s.adapterAnswers, s.draws, by simp [State.issue], List.prefix_rfl, by simp, by simp [State.issue]⟩
  | cons e rest ih =>
    have hold : ∀ s1 : State, ∀ r : Bool × State, r = State.issue rest (s1.emit [e]) →
        (∃ answers draws, s1 = { s with adapterAnswers := answers, draws := draws }) →
        ∃ evs answers draws, r.2 = { s with trace := s.trace ++ evs, adapterAnswers := answers, draws := draws } ∧
          evs <+: e :: rest ∧ (r.1 = true → evs = e :: rest) ∧
          (r.1 = false → ∃ before failing, evs = before ++ [failing] ∧ failing.canFail = true) := by
      rintro s1 r rfl ⟨answers, draws, rfl⟩
      obtain ⟨evs, a, d, h1, h2, h3, h4⟩ := ih (State.emit [e] { s with adapterAnswers := answers, draws := draws })
      refine ⟨e :: evs, a, d, ?_, ?_, ?_, ?_⟩
      · rw [h1]; simp [State.emit]
      · exact List.prefix_cons_inj e |>.mpr h2
      · intro h; rw [h3 h]
      · intro h
        obtain ⟨b, f, hb, hf⟩ := h4 h
        exact ⟨e :: b, f, by rw [hb]; rfl, hf⟩
    have htake : ∃ answers draws, s.takeAnswer.2 = { s with adapterAnswers := answers, draws := draws } := by
      unfold State.takeAnswer
      split
      · exact ⟨_, s.draws, rfl⟩
      · exact ⟨s.adapterAnswers, s.draws + 1, rfl⟩
    unfold State.issue
    split
    · next hc =>
      split
      · exact hold _ _ rfl htake
      · obtain ⟨a, d, hd⟩ := htake
        refine ⟨[e], a, d, ?_, ?_, by simp, fun _ => ⟨[], e, rfl, hc⟩⟩
        · rw [hd]; simp [State.emit]
        · exact ⟨rest, rfl⟩
    · exact hold s _ rfl ⟨s.adapterAnswers, s.draws, rfl⟩

/-- Using up answers changes the answers alone. -/
theorem useAnswers_spec (evs : List Event) (s : State) :
    ∃ answers levels draws, s.useAnswers evs = { s with adapterAnswers := answers, lineLevels := levels, draws := draws } := by
  induction evs generalizing s with
  | nil => exact ⟨_, _, _, rfl⟩
  | cons e rest ih =>
    have step : ∀ s1 : State, (∃ a l d, s1 = { s with adapterAnswers := a, lineLevels := l, draws := d }) →
        ∃ a l d, s1.useAnswers rest = { s with adapterAnswers := a, lineLevels := l, draws := d } := by
      rintro s1 ⟨a, l, d, rfl⟩
      obtain ⟨a', l', d', h⟩ := ih { s with adapterAnswers := a, lineLevels := l, draws := d }
      exact ⟨a', l', d', h⟩
    unfold State.useAnswers
    split
    · apply step
      unfold State.takeAnswer
      split
      · exact ⟨_, s.lineLevels, s.draws, rfl⟩
      · exact ⟨s.adapterAnswers, s.lineLevels, _, rfl⟩
    · split
      · apply step
        unfold State.takeLevel
        split
        · exact ⟨s.adapterAnswers, _, s.draws, rfl⟩
        · exact ⟨s.adapterAnswers, s.lineLevels, _, rfl⟩
      · exact step s ⟨_, _, _, rfl⟩

/-- An operation cut short leaves the reset block: its trace is the old one and the first k events, its responses the old ones, what waits on the ports as after the request. -/
theorem cutShort_spec (k : Nat) (before after : State) :
    ∃ answers levels draws, cutShort k before after =
      { before.resetBlock with
        trace := before.trace ++ (newEvents before after).take k, adapterAnswers := answers, lineLevels := levels, draws := draws } := by
  obtain ⟨a, l, d, h⟩ := useAnswers_spec ((newEvents before after).take k) before
  exact ⟨a, l, d, by unfold cutShort; rw [h]; rfl⟩

/-- What an interruption can make of an operation that completes in a next state: nothing, a shorter wait, or a reset after some of its events. -/
theorem interrupted_cases {before after u : State} (h : interrupted before after = .next u) :
    (∃ i, u = { after with interruption := i }) ∨
    (∃ k, before.interruption = some (.resetAfter k) ∧ k < (newEvents before after).length ∧ u = cutShort k before after) := by
  unfold interrupted at h
  split at h
  · cases h; exact .inl ⟨after.interruption, rfl⟩
  · next k hk =>
    split at h
    · next hlt => cases h; exact .inr ⟨k, hk, hlt, rfl⟩
    · cases h; exact .inl ⟨_, rfl⟩
  · split at h
    · cases h
    · cases h; exact .inl ⟨_, rfl⟩

/-- What a fetch that finds an instruction found. -/
theorem fetch_run_cases {s s1 : State} {i : Instr} (h : fetch s = .run i s1) :
    (∃ u, s.microStep = some u ∧ decodeUnit u = .ok i ∧ s1 = { s with microStep := none }) ∨
    (∃ rest, s.microStep = none ∧ decodeRequest s.requests = .ok (i, rest) ∧ s1 = { s with requests := rest }) := by
  unfold fetch at h
  split at h
  · next u hu =>
    split at h
    · next i' hi => cases h; exact .inl ⟨u, hu, hi, rfl⟩
    · cases h
  · next hn =>
    split at h
    · next i' rest hd => cases h; exact .inr ⟨rest, hn, hd, rfl⟩
    all_goals cases h

/-- The sequencer's unit goes first. -/
theorem fetch_of_unit {s : State} {u : BusUnit} {i : Instr} (hm : s.microStep = some u) (hd : decodeUnit u = .ok i) :
    fetch s = .run i { s with microStep := none } := by
  unfold fetch; split <;> simp_all

/-- With no unit, the request the decoder reads. -/
theorem fetch_of_request {s : State} {i : Instr} {rest : List Byte} (hm : s.microStep = none) (hd : decodeRequest s.requests = .ok (i, rest)) :
    fetch s = .run i { s with requests := rest } := by
  unfold fetch; split <;> simp_all

theorem fetch_of_incomplete {s : State} (hm : s.microStep = none) (hd : decodeRequest s.requests = .error .incomplete) : fetch s = .idle := by
  unfold fetch; split <;> simp_all

theorem fetch_of_reserved {s : State} {op : Byte} (hm : s.microStep = none) (hd : decodeRequest s.requests = .error (.reservedOpcode op)) :
    fetch s = .refuse (.reservedOpcode op) := by
  unfold fetch; split <;> simp_all

/-- A step with no reset asserted now is what it fetches. -/
theorem step_of_no_reset {s : State} (h : s.interruption ≠ some (.resetAfter 0)) :
    step s = match fetch s with
      | .idle => .next s
      | .refuse r => .refused r
      | .run i s' =>
        match exec i s' with
        | .next t => interrupted s' t
        | .fault r => .fault r
        | .refused r => .refused r := by
  unfold step; split
  · next hr => exact absurd hr h
  · rfl

/-- A step with a reset asserted now is the reset. -/
theorem step_of_reset {s : State} (h : s.interruption = some (.resetAfter 0)) : step s = .next s.resetBlock := by
  unfold step; simp [h]

/-- Everything a step can do when it answers a next state: a reset, nothing, or an instruction that completes, interrupted or not. -/
theorem step_cases {s t : State} (h : step s = .next t) :
    (s.interruption = some (.resetAfter 0) ∧ t = s.resetBlock) ∨
    (fetch s = .idle ∧ t = s) ∨
    (∃ i s1 t1, s.interruption ≠ some (.resetAfter 0) ∧ fetch s = .run i s1 ∧ exec i s1 = .next t1 ∧ interrupted s1 t1 = .next t) := by
  unfold step at h
  split at h
  · next hr => cases h; exact .inl ⟨hr, rfl⟩
  · next hr =>
    split at h
    · next hf => cases h; exact .inr (.inl ⟨hf, rfl⟩)
    · cases h
    · next i s1 hf =>
      split at h
      · next t1 he => exact .inr (.inr ⟨i, s1, t1, hr, hf, he, h⟩)
      · cases h
      · cases h

end Sys2Proof.Machine
end

