-- ==== Sys2Proof/Laws/Exec.lean ====
section
/-! SUPPORT. What each operation with a loop does, in closed form, and what every instruction can do when it answers a next state. -/

namespace Sys2Proof.Machine

-- READING LEVELS

/-- Taking a level changes the levels to come and the draws alone. -/
theorem takeLevel_spec (s : State) : ∃ l levels draws, s.takeLevel = (l, { s with lineLevels := levels, draws := draws }) := by
  unfold State.takeLevel; split
  · exact ⟨_, _, s.draws, rfl⟩
  · exact ⟨_, s.lineLevels, _, rfl⟩

/-- A mask with a line's bit added if the line is Low (R180). -/
def addMask (p : Pin) (l : Level) (m : BitVec 5) : BitVec 5 := if l = .low then m ||| p.mask else m

/-- A poll reads each line once in order; its mask is the fold of what was read; only the trace, the levels to come and the draws change. -/
theorem pollButtons_spec (ps : List Pin) (m : BitVec 5) (s : State) : ∃ (ls levels : List Level) (draws : Nat),
    ls.length = ps.length ∧
    pollButtons ps m s = ((ps.zip ls).foldl (fun m pl => addMask pl.1 pl.2 m) m,
      { s with trace := s.trace ++ (ps.zip ls).map (fun pl => .read pl.1 pl.2), lineLevels := levels, draws := draws }) := by
  induction ps generalizing m s with
  | nil => exact ⟨[], s.lineLevels, s.draws, rfl, by simp [pollButtons]⟩
  | cons p ps ih =>
    obtain ⟨l, lv, d, hl⟩ := takeLevel_spec s
    obtain ⟨ls, lv2, d2, h1, h2⟩ := ih (addMask p l m) (({ s with lineLevels := lv, draws := d } : State).emit [.read p l])
    refine ⟨l :: ls, lv2, d2, by simp [h1], ?_⟩
    unfold pollButtons
    simp only [State.pinRead, hl]
    rw [show (if l = Level.low then m ||| p.mask else m) = addMask p l m from rfl, h2]
    simp [State.emit]

-- BYTES

/-- A byte to send: with RS High (data) or Low (command). -/
structure OutByte where
  isData : Bool
  value : Byte
  deriving DecidableEq, Repr

/-- The events of a list of bytes, in order. -/
def sendAll : List OutByte → List Event
  | [] => []
  | b :: bs => send b.value b.isData ++ sendAll bs

theorem sendAll_append (a b : List OutByte) : sendAll (a ++ b) = sendAll a ++ sendAll b := by
  induction a with
  | nil => rfl
  | cons x xs ih => simp [sendAll, ih]

theorem sendAll_singleton (v : Byte) (isData : Bool) : sendAll [⟨isData, v⟩] = send v isData := by simp [sendAll]

theorem sendAll_data (bs : List Byte) : sendAll (bs.map (⟨true, ·⟩)) = glyphTransfer bs := by
  unfold glyphTransfer
  induction bs with
  | nil => rfl
  | cons b bs ih => simp only [List.map_cons, sendAll, List.flatMap_cons, ← ih]; rfl

-- PRINT

/-- The bytes PRINT sends and the cursor it ends with, from the text and a start (R170); reads `rows`, `columns` and `em` only. -/
def layout (s : State) : List Byte → Byte → Int → List OutByte × Byte × Int
  | [], l, c => ([], l, c)
  | ch :: rest, l, c =>
    if ch = newline then
      let r := layout s rest (advanceLine l) (resetCol s).toNat
      (⟨false, ddramByte s.rows (resetCol s) (advanceLine l)⟩ :: r.1, r.2)
    else if pastRow s c then
      let r := layout s rest (advanceLine l) ((resetCol s).toNat + stepCol s)
      (⟨false, ddramByte s.rows (resetCol s) (advanceLine l)⟩ :: ⟨true, ch⟩ :: r.1, r.2)
    else
      let r := layout s rest l (c + stepCol s)
      (⟨true, ch⟩ :: r.1, r.2)

theorem layout_congr {s s' : State} (hr : s'.rows = s.rows) (hc : s'.columns = s.columns) (he : s'.em = s.em) (text : List Byte) (l : Byte) (c : Int) :
    layout s' text l c = layout s text l c := by
  have h1 : resetCol s' = resetCol s := by simp [resetCol, hc, he]
  have h2 : stepCol s' = stepCol s := by simp [stepCol, he]
  have h3 : ∀ c, pastRow s' c = pastRow s c := by simp [pastRow, hc]
  induction text generalizing l c with
  | nil => rfl
  | cons ch rest ih => simp only [layout, h1, h2, h3, hr, ih]

/-- The loop in closed form. -/
theorem printLoop_eq (text : List Byte) (l : Byte) (c : Int) (s : State) :
    printLoop text l c s =
      { s with trace := s.trace ++ sendAll (layout s text l c).1, curLine := (layout s text l c).2.1, curCol := (layout s text l c).2.2 } := by
  induction text generalizing l c s with
  | nil => simp [printLoop, layout, State.moveCursor, sendAll]
  | cons ch rest ih =>
    unfold printLoop layout
    split
    · rw [ih, layout_congr (s := s) (s' := s.setCursor (resetCol s) (advanceLine l)) rfl rfl rfl]
      simp [sendAll, State.setCursor, State.moveCursor, State.command, State.emit, Machine.command]
    · split
      · rw [ih, layout_congr (s := s) (s' := (s.setCursor (resetCol s) (advanceLine l)).data ch) rfl rfl rfl]
        simp [sendAll, State.setCursor, State.moveCursor, State.command, State.emit, Machine.command, State.data, Machine.data]
      · rw [ih, layout_congr (s := s) (s' := s.data ch) rfl rfl rfl]
        simp [sendAll, State.emit, State.data, Machine.data]

/-- PRINT's layout is that of its pieces (R173). -/
theorem layout_append (s : State) (a b : List Byte) (l : Byte) (c : Int) :
    layout s (a ++ b) l c =
      ((layout s a l c).1 ++ (layout s b (layout s a l c).2.1 (layout s a l c).2.2).1, (layout s b (layout s a l c).2.1 (layout s a l c).2.2).2) := by
  induction a generalizing l c with
  | nil => simp [layout]
  | cons ch rest ih =>
    rw [List.cons_append]
    by_cases hn : ch = newline
    · simp only [layout, hn, if_true, ih, List.cons_append]
    · by_cases hp : pastRow s c = true
      · simp only [layout, hn, hp, if_true, if_false, ih, List.cons_append]
      · simp only [layout, hn, hp, if_false, ih, List.cons_append, Bool.false_eq_true]

-- START

/-- What START's body does after a prologue that did not fail. -/
theorem startBody_spec (s : State) : ∃ evs, startBody s =
    { s with
      phase := .ready, fs := functionShadow hardware s.rows, dc := startDisplay, em := startEntry,
      curLine := clampRow s.rows 0#8, curCol := 0, trace := s.trace ++ evs, responses := s.responses ++ [.done] } := by
  refine ⟨[.wait .powerOn] ++ controlLow hardware ++ synchronise hardware (functionShadow hardware s.rows)
    ++ Machine.command (functionSetByte (functionShadow hardware s.rows)) ++ Machine.command (displayControlByte startDisplay) ++ clearTransfer
    ++ Machine.command (entryModeByte startEntry) ++ Machine.command (ddramByte s.rows 0#8 0#8), ?_⟩
  simp [startBody, State.emit, State.command, State.setCursor, State.moveCursor, State.respond]

theorem goodGeometry_iff (cols rows : Byte) : goodGeometry cols rows = true ↔ cols ≠ 0#8 ∧ (rows = 1#8 ∨ rows = 2#8 ∨ rows = 4#8) := by
  simp [goodGeometry]; tauto

/-- Everything START can do when it answers a next state. -/
theorem execStart_cases {cols rows : Byte} {s t : State} (h : execStart cols rows s = .next t) :
    s.phase = .uninit ∧ goodGeometry cols rows = true ∧ ∃ evs answers draws,
      ((evs = prologue hardware ∧
          t = startBody { s with columns := cols, rows := rows, trace := s.trace ++ evs, adapterAnswers := answers, draws := draws }) ∨
       (evs <+: prologue hardware ∧ (∃ before failing, evs = before ++ [failing] ∧ failing.canFail = true) ∧
          t = State.raiseIoError { s with columns := cols, rows := rows, trace := s.trace ++ evs, adapterAnswers := answers, draws := draws })) := by
  unfold execStart at h
  split at h
  · next hp =>
    split at h
    · next hg =>
      cases h
      refine ⟨hp, hg, ?_⟩
      obtain ⟨evs, a, d, h1, h2, h3, h4⟩ := issue_spec (prologue hardware) { s with columns := cols, rows := rows }
      refine ⟨evs, a, d, ?_⟩
      unfold startRun
      dsimp only
      rw [h1]
      split
      · next hb => exact .inl ⟨h3 hb, rfl⟩
      · next hb => exact .inr ⟨h2, h4 (by simpa using hb), rfl⟩
    · cases h
  · cases h
  · cases h

-- ANY INSTRUCTION

/-- A request other than START has the precondition READY. -/
theorem exec_whenReady {i : Instr} (s : State) (hr : i.isRequest = true) (hn : ∀ c r, i ≠ .start c r) : ∃ f, exec i s = whenReady s f := by
  cases i <;> simp only [Instr.isRequest, Bool.false_eq_true] at hr
  case start => exact absurd rfl (hn _ _)
  all_goals
    simp only [exec, execClear, execHome, execSetCursor, execDisplayOn, execDisplayOff, execCursorOn, execCursorOff, execBlinkOn, execBlinkOff,
      execScrollLeft, execScrollRight, execLeftToRight, execRightToLeft, execAutoscrollOn, execAutoscrollOff, execCreateChar, execSetBacklight,
      execPrint, execReadButtons]
    exact ⟨_, rfl⟩

/-- An emitted row has the precondition that the phase is not FAULT. -/
theorem exec_unlessFault {i : Instr} (s : State) (hr : i.isRequest = false) : ∃ f, exec i s = unlessFault s f := by
  cases i <;> simp only [Instr.isRequest, reduceCtorEq] at hr <;>
    simp only [exec, execLcdClearDisplay, execLcdReturnHome, execLcdEntryModeSet, execLcdDisplayControl, execLcdCursorShift, execLcdFunctionSet,
      execLcdSetCgramAddr, execLcdSetDdramAddr, execLcdData, execLcdInitNibble] <;>
    exact ⟨_, rfl⟩

/-- In FAULT every instruction is refused (R196). -/
theorem exec_of_fault {s : State} (i : Instr) (h : s.phase = .fault) : exec i s = .refused .inFault := by
  cases hr : i.isRequest with
  | false => obtain ⟨f, hf⟩ := exec_unlessFault s hr; rw [hf, unlessFault_of_fault h]
  | true =>
    by_cases hn : ∀ c r, i ≠ .start c r
    · obtain ⟨f, hf⟩ := exec_whenReady s hr hn; rw [hf, whenReady_of_fault h]
    · push Not at hn
      obtain ⟨c, r, rfl⟩ := hn
      simp only [exec, execStart, h]

/-- The events an instruction other than START adds. -/
inductive Adds : List Event → Prop
  | bytes (bs : List OutByte) : Adds (sendAll bs)
  | bytesThenClearWait (bs : List OutByte) : Adds (sendAll bs ++ [.wait .clear])
  | backlight (a b c : Level) : Adds [.write .bl0 a, .write .bl1 b, .write .bl2 c]
  | buttons (u d l r e : Level) : Adds [.read .btnUp u, .read .btnDown d, .read .btnLeft l, .read .btnRight r, .read .btnSelect e]
  | nibble (n : Nibble) : Adds (write4 n)

/-- What every instruction but START does when it answers a next state: a request ran in READY and an emitted row outside FAULT, events of a known shape were added,
and the registers START alone writes stayed. -/
theorem exec_adds {i : Instr} {s t : State} (hn : ∀ c r, i ≠ .start c r) (h : exec i s = .next t) :
    (i.isRequest = true → s.phase = .ready) ∧ s.phase ≠ .fault ∧ (∃ evs, Adds evs ∧ t.trace = s.trace ++ evs) ∧
    t.phase = s.phase ∧ t.faultCode = s.faultCode ∧ t.columns = s.columns ∧ t.rows = s.rows ∧ t.fs = s.fs ∧ t.microStep = s.microStep ∧
    t.requests = s.requests ∧ t.interruption = s.interruption := by
  have one : ∀ v, Adds (Machine.command v) := fun v => by
    have h : Adds (sendAll [⟨false, v⟩]) := .bytes _
    rw [sendAll_singleton] at h; exact h
  cases i
  case start => exact absurd rfl (hn _ _)
  case readButtons =>
    simp only [exec, execReadButtons] at h
    obtain ⟨hp, rfl⟩ := whenReady_eq_next.mp h
    obtain ⟨ls, lv, d, h1, h2⟩ := pollButtons_spec buttonPins 0#5 s
    match ls, h1 with
    | [u, dn, l, r, e], _ =>
      rw [h2]
      exact ⟨fun _ => hp, by simp [hp], ⟨_, .buttons u dn l r e, rfl⟩, rfl, rfl, rfl, rfl, rfl, rfl, rfl, rfl⟩
  case print text =>
    simp only [exec, execPrint] at h
    obtain ⟨hp, rfl⟩ := whenReady_eq_next.mp h
    rw [printLoop_eq]
    exact ⟨fun _ => hp, by simp [hp], ⟨_, .bytes _, rfl⟩, rfl, rfl, rfl, rfl, rfl, rfl, rfl, rfl⟩
  case createChar slot glyph =>
    simp only [exec, execCreateChar] at h
    obtain ⟨hp, rfl⟩ := whenReady_eq_next.mp h
    refine ⟨fun _ => hp, by simp [hp], ⟨_, .bytes (⟨false, cgramByte slot⟩ :: (glyph.map (⟨true, ·⟩) ++ [⟨false, ddramByte s.rows 0#8 0#8⟩])), ?_⟩,
      rfl, rfl, rfl, rfl, rfl, rfl, rfl, rfl⟩
    simp only [State.respond_trace, State.setCursor_trace, State.emit_trace, State.command_trace, sendAll, sendAll_append, sendAll_data, Machine.command]
    simp
  case setBacklight c =>
    simp only [exec, execSetBacklight] at h
    obtain ⟨hp, rfl⟩ := whenReady_eq_next.mp h
    exact ⟨fun _ => hp, by simp [hp], ⟨_, .backlight _ _ _, rfl⟩, rfl, rfl, rfl, rfl, rfl, rfl, rfl, rfl⟩
  case clear =>
    simp only [exec, execClear] at h
    obtain ⟨hp, rfl⟩ := whenReady_eq_next.mp h
    exact ⟨fun _ => hp, by simp [hp], ⟨_, .bytesThenClearWait [⟨false, clearByte⟩], by rw [sendAll_singleton]; rfl⟩, rfl, rfl, rfl, rfl, rfl, rfl, rfl, rfl⟩
  case home =>
    simp only [exec, execHome] at h
    obtain ⟨hp, rfl⟩ := whenReady_eq_next.mp h
    exact ⟨fun _ => hp, by simp [hp], ⟨_, .bytesThenClearWait [⟨false, homeByte⟩], by rw [sendAll_singleton]; rfl⟩, rfl, rfl, rfl, rfl, rfl, rfl, rfl, rfl⟩
  case lcdClearDisplay =>
    simp only [exec, execLcdClearDisplay] at h
    obtain ⟨hp, rfl⟩ := unlessFault_eq_next.mp h
    exact ⟨by simp [Instr.isRequest], hp, ⟨_, .bytesThenClearWait [⟨false, clearByte⟩], by rw [sendAll_singleton]; rfl⟩, rfl, rfl, rfl, rfl, rfl, rfl, rfl, rfl⟩
  case lcdReturnHome =>
    simp only [exec, execLcdReturnHome] at h
    obtain ⟨hp, rfl⟩ := unlessFault_eq_next.mp h
    exact ⟨by simp [Instr.isRequest], hp, ⟨_, .bytesThenClearWait [⟨false, homeByte⟩], by rw [sendAll_singleton]; rfl⟩, rfl, rfl, rfl, rfl, rfl, rfl, rfl, rfl⟩
  case lcdInitNibble n =>
    simp only [exec, execLcdInitNibble] at h
    obtain ⟨hp, rfl⟩ := unlessFault_eq_next.mp h
    exact ⟨by simp [Instr.isRequest], hp, ⟨_, .nibble _, rfl⟩, rfl, rfl, rfl, rfl, rfl, rfl, rfl, rfl⟩
  case lcdData v =>
    simp only [exec, execLcdData] at h
    obtain ⟨hp, rfl⟩ := unlessFault_eq_next.mp h
    exact ⟨by simp [Instr.isRequest], hp, ⟨_, .bytes [⟨true, v⟩], by rw [sendAll_singleton]; rfl⟩, rfl, rfl, rfl, rfl, rfl, rfl, rfl, rfl⟩
  all_goals first
    | (simp only [exec, execLcdEntryModeSet, execLcdDisplayControl, execLcdCursorShift, execLcdFunctionSet, execLcdSetCgramAddr,
        execLcdSetDdramAddr] at h
       obtain ⟨hp, rfl⟩ := unlessFault_eq_next.mp h
       exact ⟨by simp [Instr.isRequest], hp, ⟨_, one _, rfl⟩, rfl, rfl, rfl, rfl, rfl, rfl, rfl, rfl⟩)
    | (simp only [exec, execSetCursor, execDisplayOn, execDisplayOff, execCursorOn, execCursorOff, execBlinkOn, execBlinkOff, execScrollLeft,
        execScrollRight, execLeftToRight, execRightToLeft, execAutoscrollOn, execAutoscrollOff] at h
       obtain ⟨hp, rfl⟩ := whenReady_eq_next.mp h
       exact ⟨fun _ => hp, by simp [hp], ⟨_, one _, rfl⟩, rfl, rfl, rfl, rfl, rfl, rfl, rfl, rfl⟩)

/-- Every instruction only adds to the trace. -/
theorem exec_appends {i : Instr} {s t : State} (h : exec i s = .next t) : ∃ evs, t.trace = s.trace ++ evs := by
  by_cases hn : ∀ c r, i ≠ .start c r
  · obtain ⟨_, _, ⟨e, _, he⟩, _⟩ := exec_adds hn h; exact ⟨e, he⟩
  · push Not at hn
    obtain ⟨c, r, rfl⟩ := hn
    obtain ⟨_, _, evs, a, d, ⟨_, rfl⟩ | ⟨_, _, rfl⟩⟩ := execStart_cases h
    · obtain ⟨e, he⟩ := startBody_spec { s with columns := c, rows := r, trace := s.trace ++ evs, adapterAnswers := a, draws := d }
      exact ⟨evs ++ e, by rw [he]; simp⟩
    · exact ⟨evs, rfl⟩

-- DURATIONS: equations, for `Timer.nanoseconds` is irreducible so that no unifier counts in unary.

theorem nanoseconds_powerOn : Timer.powerOn.nanoseconds = 50000000 := by simp only [Timer.nanoseconds]
theorem nanoseconds_sync1 : Timer.sync1.nanoseconds = 4100000 + Config.extraSync1 := by simp only [Timer.nanoseconds]
theorem nanoseconds_sync2 : Timer.sync2.nanoseconds = 4100000 + Config.extraSync2 := by simp only [Timer.nanoseconds]
theorem nanoseconds_sync3 : Timer.sync3.nanoseconds = 100000 + Config.extraSync3 := by simp only [Timer.nanoseconds]
theorem nanoseconds_clear : Timer.clear.nanoseconds = 2000000 := by simp only [Timer.nanoseconds]
theorem nanoseconds_enHigh : Timer.enHigh.nanoseconds = 450 + Config.extraEnHigh := by simp only [Timer.nanoseconds]
theorem nanoseconds_settle : Timer.settle.nanoseconds = 37000 + Config.extraSettle := by simp only [Timer.nanoseconds]

end Sys2Proof.Machine
end

