-- ==== Sys2Proof/Laws/PerInstr.lean ====
section
/-! SUPPORT. Laws stated per instruction: how long an instruction's encoding is (30_encoding.md R89). -/

namespace Sys2Proof.Laws.RequestLength

/-- A well-formed request is written as a 3-byte header and a payload as long as the header says; an emitted row is written as a bus unit. -/
def Statement (i : Instr) : Prop :=
  i.wellFormed = true →
    match encode i with
    | .request bytes => i.isRequest = true ∧ ∃ op a b payload, bytes = op :: a :: b :: payload ∧ payload.length = payloadLength op a
    | .unit _ => i.isRequest = false

theorem start (x0 x1 : Byte) : Statement (.start x0 x1) := fun _ => ⟨rfl, _, _, _, [], rfl, rfl⟩

theorem clear : Statement .clear := fun _ => ⟨rfl, _, _, _, [], rfl, rfl⟩

theorem home : Statement .home := fun _ => ⟨rfl, _, _, _, [], rfl, rfl⟩

theorem setCursor (x0 x1 : Byte) : Statement (.setCursor x0 x1) := fun _ => ⟨rfl, _, _, _, [], rfl, rfl⟩

theorem displayOn : Statement .displayOn := fun _ => ⟨rfl, _, _, _, [], rfl, rfl⟩

theorem displayOff : Statement .displayOff := fun _ => ⟨rfl, _, _, _, [], rfl, rfl⟩

theorem cursorOn : Statement .cursorOn := fun _ => ⟨rfl, _, _, _, [], rfl, rfl⟩

theorem cursorOff : Statement .cursorOff := fun _ => ⟨rfl, _, _, _, [], rfl, rfl⟩

theorem blinkOn : Statement .blinkOn := fun _ => ⟨rfl, _, _, _, [], rfl, rfl⟩

theorem blinkOff : Statement .blinkOff := fun _ => ⟨rfl, _, _, _, [], rfl, rfl⟩

theorem scrollLeft : Statement .scrollLeft := fun _ => ⟨rfl, _, _, _, [], rfl, rfl⟩

theorem scrollRight : Statement .scrollRight := fun _ => ⟨rfl, _, _, _, [], rfl, rfl⟩

theorem leftToRight : Statement .leftToRight := fun _ => ⟨rfl, _, _, _, [], rfl, rfl⟩

theorem rightToLeft : Statement .rightToLeft := fun _ => ⟨rfl, _, _, _, [], rfl, rfl⟩

theorem autoscrollOn : Statement .autoscrollOn := fun _ => ⟨rfl, _, _, _, [], rfl, rfl⟩

theorem autoscrollOff : Statement .autoscrollOff := fun _ => ⟨rfl, _, _, _, [], rfl, rfl⟩

theorem createChar (x0 : Byte) (x1 : List Byte) : Statement (.createChar x0 x1) := fun h => ⟨rfl, _, _, _, _, rfl, by simpa [Instr.wellFormed, payloadLength] using h⟩

theorem setBacklight (x0 : Byte) : Statement (.setBacklight x0) := fun _ => ⟨rfl, _, _, _, [], rfl, rfl⟩

theorem print (x0 : List Byte) : Statement (.print x0) := fun h => ⟨rfl, _, _, _, _, rfl, by
    have h : x0.length ≤ 255 := by simpa [Instr.wellFormed] using h
    simp only [payloadLength, BitVec.toNat_ofNat, reduceIte, BitVec.reduceEq]
    omega⟩

theorem readButtons : Statement .readButtons := fun _ => ⟨rfl, _, _, _, [], rfl, rfl⟩

theorem lcdClearDisplay : Statement .lcdClearDisplay := fun _ => rfl

theorem lcdReturnHome : Statement .lcdReturnHome := fun _ => rfl

theorem lcdEntryModeSet (x0 x1 : Bool) : Statement (.lcdEntryModeSet x0 x1) := fun _ => rfl

theorem lcdDisplayControl (x0 x1 x2 : Bool) : Statement (.lcdDisplayControl x0 x1 x2) := fun _ => rfl

theorem lcdCursorShift (x0 x1 : Bool) : Statement (.lcdCursorShift x0 x1) := fun _ => rfl

theorem lcdFunctionSet (x0 x1 x2 : Bool) : Statement (.lcdFunctionSet x0 x1 x2) := fun _ => rfl

theorem lcdSetCgramAddr (x0 : BitVec 6) : Statement (.lcdSetCgramAddr x0) := fun _ => rfl

theorem lcdSetDdramAddr (x0 : BitVec 7) : Statement (.lcdSetDdramAddr x0) := fun _ => rfl

theorem lcdData (x0 : Byte) : Statement (.lcdData x0) := fun _ => rfl

theorem lcdInitNibble (x0 : Bool) : Statement (.lcdInitNibble x0) := fun _ => rfl

end Sys2Proof.Laws.RequestLength
end

