-- ==== Sys2Proof/Tests/Slice0.lean ====
section
/-! SUPPORT. The model's own tests. Every expected value is the spec's (95_test_vectors.md, the tables of R151, R161, R175); the last part gives a witness for the hypotheses
of each obligation that has any. -/

set_option maxRecDepth 8000

namespace Sys2Proof.Tests

open Sys2Proof Sys2Proof.Machine Sys2Proof.Safety

-- HELPERS

/-- The "fresh 16x2" state of 95_test_vectors.md, the trace counted from empty. -/
def fresh : State :=
  { State.reset with phase := .ready, columns := 16#8, rows := 2#8, fs := 0x08#8, dc := 0x04#8, em := 0x02#8 }

/-- A reset block whose adapter will answer Ok to the sixteen calls of START. -/
def powered : State := { State.reset with adapterAnswers := List.replicate 16 .ok }

/-- The next state of an instruction, if it completes. -/
def after (i : Instr) (s : State) : Option State :=
  match exec i s with
  | .next t => some t
  | .fault _ => none
  | .refused _ => none

/-- Why an instruction is refused, if it is. -/
def refusal (i : Instr) (s : State) : Option Refusal :=
  match exec i s with
  | .next _ => none
  | .fault _ => none
  | .refused r => some r

/-- The bytes an instruction sends from a state with an empty trace. -/
def bytesOf (i : Instr) (s : State) : Option (List SentByte) := (after i s).bind (fun t => sentBytes t.trace)

/-- CursorState after an instruction. -/
def cursorAfter (i : Instr) (s : State) : Option (Byte × Int) := (after i s).map (fun t => (t.curLine, t.curCol))

/-- A command byte. -/
def c (v : Byte) : SentByte := ⟨false, v⟩

/-- A data byte. -/
def d (v : Byte) : SentByte := ⟨true, v⟩

/-- The text "ABC…" of n bytes. -/
def letters (n : Nat) : List Byte := (List.range n).map (fun k => BitVec.ofNat 8 (0x41 + k))

-- WELL-FORMEDNESS (R72): each check refuses an ill-formed term and takes the well-formed one at its boundary.

theorem test_wellFormed_glyph_short : (Instr.createChar 0#8 (List.replicate 7 0#8)).wellFormed = false := by decide
theorem test_wellFormed_glyph_long : (Instr.createChar 0#8 (List.replicate 9 0#8)).wellFormed = false := by decide
theorem test_wellFormed_glyph : (Instr.createChar 255#8 (List.replicate 8 0#8)).wellFormed = true := by decide
theorem test_wellFormed_text_long : (Instr.print (List.replicate 256 0x78#8)).wellFormed = false := by decide
theorem test_wellFormed_text : (Instr.print (List.replicate 255 0x78#8)).wellFormed = true := by decide

-- DECODING: every constructor from a word written out from the spec's encoding (R70, R71, R72; R75 to R84).

theorem test_decode_start : decodeTableWord 24 0b00000000_00010000_00000010 = some (.start 16#8 2#8) := by decide
theorem test_decode_clear : decodeTableWord 24 0b00000001_00000000_00000000 = some .clear := by decide
theorem test_decode_home : decodeTableWord 24 0b00000010_00000000_00000000 = some .home := by decide
theorem test_decode_setCursor : decodeTableWord 24 0b00000011_00000101_00000001 = some (.setCursor 5#8 1#8) := by decide
theorem test_decode_displayOn : decodeTableWord 24 0b00000100_00000000_00000000 = some .displayOn := by decide
theorem test_decode_displayOff : decodeTableWord 24 0b00000101_00000000_00000000 = some .displayOff := by decide
theorem test_decode_cursorOn : decodeTableWord 24 0b00000110_10101011_11001101 = some .cursorOn := by decide
theorem test_decode_cursorOff : decodeTableWord 24 0b00000111_00000000_00000000 = some .cursorOff := by decide
theorem test_decode_blinkOn : decodeTableWord 24 0b00001000_00000000_00000000 = some .blinkOn := by decide
theorem test_decode_blinkOff : decodeTableWord 24 0b00001001_00000000_00000000 = some .blinkOff := by decide
theorem test_decode_scrollLeft : decodeTableWord 24 0b00001010_00000000_00000000 = some .scrollLeft := by decide
theorem test_decode_scrollRight : decodeTableWord 24 0b00001011_00000000_00000000 = some .scrollRight := by decide
theorem test_decode_leftToRight : decodeTableWord 24 0b00001100_00000000_00000000 = some .leftToRight := by decide
theorem test_decode_rightToLeft : decodeTableWord 24 0b00001101_00000000_00000000 = some .rightToLeft := by decide
theorem test_decode_autoscrollOn : decodeTableWord 24 0b00001110_00000000_00000000 = some .autoscrollOn := by decide
theorem test_decode_autoscrollOff : decodeTableWord 24 0b00001111_00000000_00000000 = some .autoscrollOff := by decide
theorem test_decode_createChar :
    decodeRequest [0b00010000#8, 3#8, 0#8, 0x00#8, 0x0A#8, 0x1F#8, 0x1F#8, 0x0E#8, 0x04#8, 0x00#8, 0x01#8, 0xFF#8] =
      .ok (.createChar 3#8 [0x00#8, 0x0A#8, 0x1F#8, 0x1F#8, 0x0E#8, 0x04#8, 0x00#8, 0x01#8], [0xFF#8]) := by rfl
theorem test_decode_setBacklight : decodeTableWord 24 0b00010001_00000101_00000000 = some (.setBacklight 5#8) := by decide
theorem test_decode_print : decodeRequest [0b00010010#8, 3#8, 0#8, 0x41#8, 0x0A#8, 0x42#8] = .ok (.print [0x41#8, 0x0A#8, 0x42#8], []) := by rfl
theorem test_decode_readButtons : decodeTableWord 24 0b00010011_00000000_00000000 = some .readButtons := by decide
theorem test_decode_reserved_first : decodeTableWord 24 0x140000 = none := by decide
theorem test_decode_reserved_last : decodeTableWord 24 0xFFFFFF = none := by decide
theorem test_decode_incomplete : decodeRequest [0x12#8, 2#8, 0#8, 0x41#8] = .error .incomplete := by rfl
theorem test_decode_lcdClearDisplay : decodeTableWord 8 0b00000001 = some .lcdClearDisplay := by decide
theorem test_decode_lcdReturnHome : decodeTableWord 8 0b00000010 = some .lcdReturnHome := by decide
theorem test_decode_lcdEntryModeSet : decodeTableWord 8 0b00000110 = some (.lcdEntryModeSet true false) := by decide
theorem test_decode_lcdDisplayControl : decodeTableWord 8 0b00001101 = some (.lcdDisplayControl true false true) := by decide
theorem test_decode_lcdCursorShift : decodeTableWord 8 0b00011000 = some (.lcdCursorShift true false) := by decide
theorem test_decode_lcdFunctionSet : decodeTableWord 8 0b00101000 = some (.lcdFunctionSet false true false) := by decide
theorem test_decode_lcdSetCgramAddr : decodeTableWord 8 0b01011000 = some (.lcdSetCgramAddr 0x18#6) := by decide
theorem test_decode_lcdSetDdramAddr : decodeTableWord 8 0b11000101 = some (.lcdSetDdramAddr 0x45#7) := by decide
theorem test_decode_lcdData : decodeUnit (.data 0b01000001#8) = .ok (.lcdData 0x41#8) := by rfl
theorem test_decode_lcdInitNibble_sync : decodeTableWord 4 0b0011 = some (.lcdInitNibble true) := by decide
theorem test_decode_lcdInitNibble_commit : decodeTableWord 4 0b0010 = some (.lcdInitNibble false) := by decide
theorem test_decode_no_command_row : decodeUnit (.command 0x03#8) = .error (.noCommandRow 0x03#8) := by rfl
/-- No two command rows share a byte. -/
theorem test_command_rows_disjoint : commandRows.Pairwise (fun p q => p.pattern &&& q.mask ≠ q.pattern ∨ q.pattern &&& p.mask ≠ p.pattern) := by decide
/-- No byte is of two rows. -/
theorem test_command_rows_unambiguous : ∀ v : Byte, (commandRows.filter (fun r => v &&& r.mask == r.pattern)).length ≤ 1 := by decide

-- START (V20, V21, V22, V23)

theorem test_start_trace : (after (.start 16#8 2#8) powered).map (fun t => (t.phase, t.fs, t.trace)) = some (.ready, 0x08#8, traceStart 0x28#8) ∧
    (after (.start 16#8 1#8) powered).map (fun t => (t.phase, t.fs, t.trace)) = some (.ready, 0x00#8, traceStart 0x20#8) := by
  constructor <;> rfl
theorem test_start_fault_at_d5 :
    (after (.start 16#8 2#8) { powered with adapterAnswers := [.ok, .ok, .ok, .ok, .ok, .ioError] }).map (fun t => (t.phase, t.faultCode, t.columns, t.trace)) =
      some (.fault, 1#2, 16#8,
        [.adapterOpen, .mode .rs .output, .mode .rw .output, .mode .en .output, .mode .d4 .output, .mode .d5 .output]) := by rfl

-- REFUSALS (V22, V80)

theorem test_refusals : refusal (.start 16#8 3#8) powered = some .badGeometry ∧ refusal (.start 0#8 2#8) powered = some .badGeometry ∧
    refusal (.start 16#8 2#8) fresh = some .alreadyStarted ∧ refusal .clear powered = some .notStarted ∧
    refusal .readButtons { fresh with phase := .fault } = some .inFault ∧
    refusal (.lcdData 0x41#8) { fresh with phase := .fault } = some .inFault := by decide

-- CLEAR, HOME, SET_CURSOR, SCROLL (R151 to R155)

theorem test_clear : (after .clear { fresh with curLine := 1#8, curCol := 7 }).map (fun t => (t.curLine, t.curCol, t.trace)) =
    some (0#8, 0, traceC 0x01#8 ++ [.wait .clear]) := by rfl
theorem test_home : (after .home { fresh with curLine := 1#8, curCol := 7 }).map (fun t => (t.curLine, t.curCol, t.trace)) =
    some (0#8, 0, traceC 0x02#8 ++ [.wait .clear]) := by rfl
theorem test_setCursor_clamps : bytesOf (.setCursor 3#8 2#8) fresh = some [c 0xC3#8] ∧ cursorAfter (.setCursor 3#8 2#8) fresh = some (1#8, 3) := by
  constructor <;> rfl
theorem test_setCursor_column_overflow : bytesOf (.setCursor 255#8 3#8) { fresh with rows := 4#8, columns := 20#8 } = some [c 0xD3#8] ∧
    cursorAfter (.setCursor 255#8 3#8) { fresh with rows := 4#8, columns := 20#8 } = some (3#8, 255) := by
  constructor <;> rfl
theorem test_scrollLeft : bytesOf .scrollLeft fresh = some [c 0x18#8] := by rfl
theorem test_scrollRight : bytesOf .scrollRight fresh = some [c 0x1C#8] := by rfl

-- THE TOGGLES (V30, R131 to R140)

theorem test_displayOn : (after .displayOn { fresh with dc := 0x03#8 }).map (·.dc) = some 0x07#8 ∧ bytesOf .displayOn { fresh with dc := 0x03#8 } = some [c 0x0F#8] := by
  constructor <;> rfl
theorem test_displayOff : (after .displayOff { fresh with dc := 0x07#8 }).map (·.dc) = some 0x03#8 ∧ bytesOf .displayOff { fresh with dc := 0x07#8 } = some [c 0x0B#8] := by
  constructor <;> rfl
theorem test_cursorOn : (after .cursorOn fresh).map (·.dc) = some 0x06#8 ∧ bytesOf .cursorOn fresh = some [c 0x0E#8] := by constructor <;> rfl
theorem test_cursorOff : (after .cursorOff { fresh with dc := 0x07#8 }).map (·.dc) = some 0x05#8 ∧ bytesOf .cursorOff { fresh with dc := 0x07#8 } = some [c 0x0D#8] := by
  constructor <;> rfl
theorem test_blinkOn : (after .blinkOn fresh).map (·.dc) = some 0x05#8 ∧ bytesOf .blinkOn fresh = some [c 0x0D#8] := by constructor <;> rfl
theorem test_blinkOff : (after .blinkOff { fresh with dc := 0x05#8 }).map (·.dc) = some 0x04#8 ∧ bytesOf .blinkOff { fresh with dc := 0x05#8 } = some [c 0x0C#8] := by
  constructor <;> rfl
theorem test_leftToRight : (after .leftToRight { fresh with em := 0x01#8 }).map (·.em) = some 0x03#8 ∧ bytesOf .leftToRight { fresh with em := 0x01#8 } = some [c 0x07#8] := by
  constructor <;> rfl
theorem test_rightToLeft : (after .rightToLeft { fresh with em := 0x03#8 }).map (·.em) = some 0x01#8 ∧ bytesOf .rightToLeft { fresh with em := 0x03#8 } = some [c 0x05#8] := by
  constructor <;> rfl
theorem test_autoscrollOn : (after .autoscrollOn fresh).map (·.em) = some 0x03#8 ∧ bytesOf .autoscrollOn fresh = some [c 0x07#8] := by constructor <;> rfl
theorem test_autoscrollOff : (after .autoscrollOff { fresh with em := 0x03#8 }).map (·.em) = some 0x02#8 ∧ bytesOf .autoscrollOff { fresh with em := 0x03#8 } = some [c 0x06#8] := by
  constructor <;> rfl

-- CREATE_CHAR, SET_BACKLIGHT (V50)

theorem test_createChar : bytesOf (.createChar 9#8 [0xFF#8, 0xE0#8, 0x80#8, 0x00#8, 0x0A#8, 0xAA#8, 0x55#8, 0x1F#8]) { fresh with curLine := 1#8, curCol := 9 } =
    some [c 0x48#8, d 0xFF#8, d 0xE0#8, d 0x80#8, d 0x00#8, d 0x0A#8, d 0xAA#8, d 0x55#8, d 0x1F#8, c 0x80#8] := by rfl
theorem test_createChar_cursor : cursorAfter (.createChar 255#8 (List.replicate 8 0#8)) { fresh with curLine := 1#8, curCol := 9 } = some (0#8, 0) := by rfl
theorem test_setBacklight_5 : (after (.setBacklight 5#8) fresh).map (·.trace) = some [.write .bl0 .low, .write .bl1 .high, .write .bl2 .low] := by rfl
theorem test_setBacklight_F8 : (after (.setBacklight 0xF8#8) fresh).map (·.trace) = some [.write .bl0 .high, .write .bl1 .high, .write .bl2 .high] := by rfl

-- PRINT (V3, R175)

theorem test_print_newline : bytesOf (.print [0x41#8, 0x0A#8, 0x42#8]) fresh = some [d 0x41#8, c 0xC0#8, d 0x42#8] ∧
    cursorAfter (.print [0x41#8, 0x0A#8, 0x42#8]) fresh = some (1#8, 1) := by
  constructor <;> rfl
theorem test_print_right_to_left : bytesOf (.print [0x41#8, 0x42#8]) { fresh with em := 0x00#8 } = some [d 0x41#8, c 0xCF#8, d 0x42#8] ∧
    cursorAfter (.print [0x41#8, 0x42#8]) { fresh with em := 0x00#8 } = some (1#8, 14) := by
  constructor <;> rfl

-- READ_BUTTONS (V6)

theorem test_readButtons_idle : (after .readButtons { fresh with lineLevels := List.replicate 5 .high }).map (·.responses) = some [.doneMask 0#5] := by rfl
theorem test_readButtons_two : (after .readButtons { fresh with lineLevels := [.high, .low, .high, .high, .low] }).map (·.responses) =
    some [.doneMask (0#5 ||| Pin.mask .btnDown ||| Pin.mask .btnSelect)] := by rfl

-- EMITTED ROWS (R75 to R84)

theorem test_lcdClearDisplay : (after .lcdClearDisplay State.reset).map (·.trace) = some (traceC 0x01#8 ++ [.wait .clear]) := by rfl
theorem test_lcdReturnHome : (after .lcdReturnHome State.reset).map (·.trace) = some (traceC 0x02#8 ++ [.wait .clear]) := by rfl
theorem test_lcdEntryModeSet : bytesOf (.lcdEntryModeSet false true) fresh = some [c 0x05#8] := by rfl
theorem test_lcdDisplayControl : bytesOf (.lcdDisplayControl false true false) fresh = some [c 0x0A#8] := by rfl
theorem test_lcdCursorShift : bytesOf (.lcdCursorShift false true) fresh = some [c 0x14#8] := by rfl
theorem test_lcdFunctionSet : bytesOf (.lcdFunctionSet true false true) fresh = some [c 0x34#8] := by rfl
theorem test_lcdSetCgramAddr : bytesOf (.lcdSetCgramAddr 0x3F#6) fresh = some [c 0x7F#8] := by rfl
theorem test_lcdSetDdramAddr : bytesOf (.lcdSetDdramAddr 0x7F#7) fresh = some [c 0xFF#8] := by rfl
theorem test_lcdData : bytesOf (.lcdData 0x0A#8) fresh = some [d 0x0A#8] := by rfl
theorem test_lcdInitNibble : (after (.lcdInitNibble true) fresh).map (·.trace) = some (traceNibble 0x3#4) := by rfl

-- THE STEP

theorem test_step_runs_request :
    (match step { fresh with requests := [0x06#8, 0#8, 0#8, 0x0A#8] } with
     | .next t => some (t.dc, t.requests)
     | _ => none) = some (0x06#8, [0x0A#8]) := by rfl
theorem test_step_waits : step { fresh with requests := [0x12#8, 1#8, 0#8] } = .next { fresh with requests := [0x12#8, 1#8, 0#8] } := by rfl
theorem test_step_from_reset_idles : step State.reset = .next State.reset := by rfl
theorem test_step_refuses_reserved : step { fresh with requests := [0x14#8, 0#8, 0#8] } = .refused (.reservedOpcode 0x14#8) := by rfl
theorem test_step_reset : (match step { fresh with interruption := some (.resetAfter 0) } with
     | .next t => some (t.phase, t.faultCode, t.trace)
     | _ => none) = some (.uninit, 0#2, []) := by rfl
/-- R216: a reset in mid-byte leaves EN High (event 8 of a byte is `W(EN,1)`). -/
theorem test_step_reset_mid_byte : (match step { fresh with requests := [0x0A#8, 0#8, 0#8], interruption := some (.resetAfter 8) } with
     | .next t => some (t.phase, outLevel .en t.trace none, t.responses)
     | _ => none) = some (.uninit, some .high, []) := by rfl
/-- R196: a unit held in FAULT emits nothing. -/
theorem test_step_refuses_unit_in_fault :
    step { fresh with phase := .fault, faultCode := 1#2, microStep := some (.command 0x01#8) } = .refused .inFault := by rfl
theorem test_table_word_runs : (match step (fresh.withFetchWord 24 0x050000) with
     | .next t => some t.dc
     | _ => none) = some 0x00#8 := by rfl
theorem test_pin_bank_after_start : (after (.start 16#8 2#8) powered).map (fun t =>
      (outLevel .rs t.trace none, outLevel .bl0 t.trace none, lineDir .bl0 t.trace none, linePull .btnUp t.trace none)) =
    some (some .low, none, some .output, some true) := by rfl

-- WITNESSES: for each obligation with hypotheses, a state and operands that meet them all, clause by clause at the boundaries.

/-- An instruction completes in a state. -/
theorem next_of_after {i : Instr} {s t : State} (h : after i s = some t) : exec i s = .next t := by
  unfold after at h; split at h <;> simp_all

theorem witness_RequestDecodeInvertsEncode :
    (Instr.print (List.replicate 255 0x78#8)).wellFormed = true ∧ (Instr.print (List.replicate 255 0x78#8)).isRequest = true ∧
    (Instr.createChar 255#8 (List.replicate 8 0#8)).wellFormed = true ∧ (Instr.createChar 255#8 (List.replicate 8 0#8)).isRequest = true := by decide

theorem witness_EmittedDecodeAndEncodeInverse :
    (Instr.lcdSetDdramAddr 0x7F#7).isRequest = false ∧ decodeUnit (.command 0xFF#8) = .ok (.lcdSetDdramAddr 0x7F#7) ∧
    decodeUnit (.nibble 0x2#4) = .ok (.lcdInitNibble false) := ⟨rfl, rfl, rfl⟩

theorem witness_RequestLengthIsFunctionOfHeader :
    decodeRequest (0x12#8 :: 255#8 :: 0#8 :: List.replicate 256 0x78#8) = .ok (.print (List.replicate 255 0x78#8), [0x78#8]) ∧
    decodeRequest (0x10#8 :: 255#8 :: 0#8 :: List.replicate 8 0#8) = .ok (.createChar 255#8 (List.replicate 8 0#8), []) ∧
    decodeRequest [0x13#8, 9#8, 9#8] = .ok (.readButtons, []) := ⟨rfl, rfl, rfl⟩

theorem witness_IgnoredFieldsChangeNothing :
    0x01#8 ∉ [0x00#8, 0x03#8, 0x10#8, 0x11#8, 0x12#8] ∧ 0x13#8 ∉ [0x00#8, 0x03#8, 0x10#8, 0x11#8, 0x12#8] ∧ 0x12#8 ∈ [0x10#8, 0x11#8, 0x12#8] := by decide

theorem witness_StepRunsDecodedRequest :
    fresh.interruption = none ∧ fresh.microStep = none ∧ decodeRequest { fresh with requests := [0x03#8, 5#8, 1#8] }.requests = .ok (.setCursor 5#8 1#8, []) :=
  ⟨rfl, rfl, rfl⟩

theorem witness_StepRunsEmittedUnit :
    fresh.interruption = none ∧ { fresh with microStep := some (.data 0x41#8) }.microStep = some (.data 0x41#8) ∧ decodeUnit (.data 0x41#8) = .ok (.lcdData 0x41#8) :=
  ⟨rfl, rfl, rfl⟩

theorem witness_TableWordRunsNext : decodeTableWord 24 0x120000 = some (.print []) ∧ decodeTableWord 4 0x3 = some (.lcdInitNibble true) := by decide

theorem witness_StepRefusesReservedAndWaits :
    fresh.interruption ≠ some (.resetAfter 0) ∧ fresh.microStep = none ∧ 0x14#8 ≤ 0x14#8 ∧ 0x14#8 ≤ 0xFF#8 ∧
    decodeRequest fresh.requests = .error .incomplete := ⟨by decide, rfl, by decide, by decide, rfl⟩

theorem witness_ResetInputReturnsToUninit :
    { fresh with interruption := some (.resetAfter 0) }.interruption = some (.resetAfter 0) := rfl

/-- CLEAR, its last request byte just taken, with an interruption scheduled. -/
def clearing (i : Interruption) : State := { fresh with interruption := some i }

/-- CLEAR is 21 events: a reset after 20 of them falls inside it, one after 21 does not. -/
theorem witness_ResetInMidOperationCutsTrace :
    decodeRequest [0x01#8, 0#8, 0#8] = .ok (.clear, []) ∧
    (∃ t, exec .clear (clearing (.resetAfter 20)) = .next t ∧ fresh.trace.length + 20 < t.trace.length) ∧
    (∃ t, exec .clear (clearing (.resetAfter 21)) = .next t ∧ t.trace.length ≤ fresh.trace.length + 21) := by
  refine ⟨rfl, ⟨_, rfl, ?_⟩, ⟨_, rfl, ?_⟩⟩ <;> decide

/-- CLEAR makes 16 adapter calls. -/
theorem witness_HangingAdapterCallSticks :
    decodeRequest [0x01#8, 0#8, 0#8] = .ok (.clear, []) ∧
    (∃ t, exec .clear (clearing (.hangAfter 15)) = .next t ∧ 15 < ((t.trace.drop fresh.trace.length).filter Event.isCall).length) ∧
    (∃ t, exec .clear (clearing (.hangAfter 16)) = .next t ∧ ((t.trace.drop fresh.trace.length).filter Event.isCall).length ≤ 16) := by
  refine ⟨rfl, ⟨_, rfl, ?_⟩, ⟨_, rfl, ?_⟩⟩ <;> decide

theorem witness_StartCompletes :
    powered.phase = .uninit ∧ validGeometry 1#8 1#8 ∧ validGeometry 255#8 2#8 ∧ validGeometry 20#8 4#8 ∧
    powered.adapterAnswers = List.replicate 16 .ok ++ [] := by
  unfold validGeometry; decide

theorem witness_StartFaultIsPrecise :
    { powered with adapterAnswers := [.ioError] }.adapterAnswers = List.replicate 0 AdapterAnswer.ok ++ AdapterAnswer.ioError :: [] ∧
    { powered with adapterAnswers := List.replicate 15 AdapterAnswer.ok ++ [AdapterAnswer.ioError] }.adapterAnswers = List.replicate 15 AdapterAnswer.ok ++ AdapterAnswer.ioError :: [] ∧
    powered.phase = .uninit ∧ validGeometry 16#8 2#8 := by
  unfold validGeometry; decide

theorem witness_StartEndsReadyOrFault : State.reset.phase = .uninit ∧ validGeometry 16#8 2#8 := by
  unfold validGeometry; decide

theorem witness_StartFollowsInitFsm_and_StartLatchesInitSequence :
    (∃ t, exec (.start 16#8 2#8) powered = .next t ∧ t.phase = .ready) ∧ (∃ t, exec (.start 16#8 1#8) powered = .next t ∧ t.phase = .ready) :=
  ⟨⟨_, rfl, rfl⟩, ⟨_, rfl, rfl⟩⟩

/-- The hypothesis of DisplayTogglesComplete, EntryTogglesComplete, DirectionRoundTrip, ClearAndHomeComplete, ScrollsComplete, SetBacklightCompletes, PrintCompletes and
PrintOfPiecesEqualsPrint: the block is READY. -/
theorem witness_ready : fresh.phase = .ready := rfl

theorem witness_ToggleTwiceLaw :
    (Instr.cursorOn, Instr.cursorOff, 1) ∈ [(Instr.displayOn, Instr.displayOff, 2), (.cursorOn, .cursorOff, 1), (.blinkOn, .blinkOff, 0)] ∧
    fresh.dc.getLsbD 1 = false ∧ fresh.dc.getLsbD 2 = true := by decide

/-- Also the hypotheses of PrintNewline. -/
theorem witness_SetCursorCompletes : fresh.phase = .ready ∧ validGeometry fresh.columns fresh.rows := by
  unfold validGeometry; decide

theorem witness_RowClampLaw :
    fresh.phase = .ready ∧ validGeometry fresh.columns fresh.rows ∧ fresh.rows ≤ 2#8 ∧ 1#8 < fresh.rows ∧
    ∃ t, exec (.setCursor 200#8 1#8) fresh = .next t :=
  ⟨rfl, by unfold validGeometry; decide, by decide, by decide, _, rfl⟩

theorem witness_CreateCharCompletes_and_CreateCharThenPrint :
    fresh.phase = .ready ∧ validGeometry fresh.columns fresh.rows ∧ (List.replicate 8 (0#8 : Byte)).length = 8 ∧ 7#8 < 8#8 := by
  unfold validGeometry; decide

/-- Both ends of a 16-column row. -/
theorem witness_PrintWritesInRow :
    0x41#8 ≠ 0x0A#8 ∧ 0 ≤ fresh.curCol ∧ fresh.curCol ≤ (fresh.columns.toNat : Int) - 1 ∧
    0 ≤ { fresh with curCol := 15 }.curCol ∧ { fresh with curCol := 15 }.curCol ≤ (fresh.columns.toNat : Int) - 1 := by decide

/-- One column past either end. -/
theorem witness_PrintWrapsLazily :
    validGeometry fresh.columns fresh.rows ∧ 0x41#8 ≠ 0x0A#8 ∧
    { fresh with curCol := -1 }.curCol < 0 ∧ (fresh.columns.toNat : Int) - 1 < { fresh with curCol := 16 }.curCol := by
  unfold validGeometry; decide

theorem witness_PrintWrapsAtTheColumnsthByte :
    fresh.phase = .ready ∧ validGeometry fresh.columns fresh.rows ∧ fresh.em.getLsbD 1 = true ∧ 0 ≤ fresh.curCol ∧
    fresh.curCol + (letters 16).length = fresh.columns.toNat ∧ 0x0A#8 ∉ letters 16 ∧ 0x51#8 ≠ 0x0A#8 := by
  unfold validGeometry; decide

theorem witness_PrintSendsTextUnchanged : ∃ t, exec (.print [0x00#8, 0x0A#8, 0xFF#8]) fresh = .next t := ⟨_, rfl⟩

theorem witness_PrintPinsToLastRow :
    validGeometry fresh.columns fresh.rows ∧ fresh.rows - 1#8 ≤ { fresh with curLine := 1#8 }.curLine ∧
    ∃ t, exec (.print [0x0A#8]) { fresh with curLine := 1#8 } = .next t :=
  ⟨by unfold validGeometry; decide, by decide, _, rfl⟩

theorem witness_ReadButtonsCompletes :
    { fresh with lineLevels := [.low, .high, .high, .low, .high] }.lineLevels = .low :: .high :: .high :: .low :: .high :: [] := rfl

/-- Both ends of the button lines; a poll of five High lines. -/
theorem witness_ButtonMasksAreDistinctOneHot :
    Pin.btnUp ∈ buttonLines ∧ Pin.btnSelect ∈ buttonLines ∧
    ∃ t, exec .readButtons { fresh with lineLevels := List.replicate 5 .high } = .next t ∧
      ∀ p ∈ buttonLines, Event.read p .high ∈ t.trace.drop fresh.trace.length :=
  ⟨by decide, by decide, _, rfl, by decide⟩

theorem witness_LevelsReachOnlyReadButtons : Instr.clear ≠ .readButtons := by decide

theorem witness_EmittedRowsComplete :
    State.reset.phase ≠ .fault ∧ fresh.phase ≠ .fault ∧ { fresh with phase := .fault }.phase = .fault ∧ (Instr.lcdInitNibble true).isRequest = false := by decide

theorem witness_RequestsRefusedExactlyWhenSpecSays :
    Instr.clear.isRequest = true ∧ (Instr.start 16#8 3#8).isRequest = true ∧ { fresh with phase := .fault }.phase = .fault ∧
    State.reset.phase = .uninit ∧ fresh.phase = .ready ∧ ¬ validGeometry 16#8 3#8 ∧ ¬ validGeometry 0#8 2#8 ∧ validGeometry 1#8 4#8 := by
  unfold validGeometry; decide

/-- START leaves UNINIT, a reset leaves READY. -/
theorem witness_PhaseChangesOnlyByStartOrReset :
    (∃ t, step { powered with requests := [0#8, 16#8, 2#8] } = .next t ∧ t.phase ≠ powered.phase) ∧
    (∃ t, step { fresh with interruption := some (.resetAfter 0) } = .next t ∧ t.phase ≠ fresh.phase) := by
  constructor <;> exact ⟨_, rfl, by decide⟩

theorem witness_RegistersHaveOnlyListedWriters :
    (∃ t, exec (.start 16#8 2#8) powered = .next t ∧ t.phase ≠ powered.phase) ∧
    (∃ t, exec (.setCursor 1#8 1#8) fresh = .next t ∧ t.curLine ≠ fresh.curLine) ∧
    (∃ t, exec .cursorOn fresh = .next t ∧ t.dc ≠ fresh.dc) ∧ (∃ t, exec .rightToLeft fresh = .next t ∧ t.em ≠ fresh.em) := by
  refine ⟨⟨_, rfl, ?_⟩, ⟨_, rfl, ?_⟩, ⟨_, rfl, ?_⟩, ⟨_, rfl, ?_⟩⟩ <;> decide

theorem fresh_registersLegal : RegistersLegal fresh :=
  ⟨rfl, fun _ => ⟨by unfold validGeometry; decide, rfl, by decide, by decide, by decide, by decide⟩⟩

theorem witness_EveryStepKeepsRegistersLegal : RegistersLegal fresh ∧ ∃ t, step { fresh with requests := [0x06#8, 0#8, 0#8] } = .next t :=
  ⟨fresh_registersLegal, _, rfl⟩

theorem witness_EveryStepKeepsTraceLegal : (∀ e ∈ powered.trace, legalEvent e) ∧ ∃ t, step { powered with requests := [0#8, 16#8, 2#8] } = .next t :=
  ⟨fun _ h => by simp [powered, State.reset] at h, _, rfl⟩

theorem witness_EveryStepKeepsLinesConfigured : LinesConfigured powered ∧ ∃ t, step { powered with requests := [0#8, 16#8, 2#8] } = .next t :=
  ⟨⟨rfl, trivial, fun h => by cases h⟩, _, rfl⟩

theorem witness_AddedEventsAreWellPulsed : ∃ t, exec .clear fresh = .next t := ⟨_, rfl⟩

theorem witness_ShadowsMatchWhatWasSent :
    fresh.phase = .ready ∧ RegistersLegal fresh ∧ Instr.cursorOn.isRequest = true ∧ (∃ t, exec .cursorOn fresh = .next t ∧ t.dc ≠ fresh.dc) ∧
    (∃ t, exec .rightToLeft fresh = .next t ∧ t.em ≠ fresh.em) :=
  ⟨rfl, fresh_registersLegal, rfl, ⟨_, rfl, by decide⟩, ⟨_, rfl, by decide⟩⟩

theorem witness_ReservedCommandBytesNeverSent :
    ∃ t, exec .clear fresh = .next t ∧ sentBytes (t.trace.drop fresh.trace.length) = some [c 0x01#8] ∧ Instr.clear.isRequest = true := ⟨_, rfl, rfl, rfl⟩

/-- In FAULT: with no reset scheduled, and with one asserted now; a geometry for the START after it. -/
theorem witness_FaultIsSticky :
    { fresh with phase := .fault }.phase = .fault ∧ { fresh with phase := .fault }.interruption ≠ some (.resetAfter 0) ∧
    { fresh with phase := .fault, interruption := some (.resetAfter 0) }.interruption = some (.resetAfter 0) ∧ validGeometry 16#8 2#8 := by
  unfold validGeometry; decide

theorem witness_OperationsKeepLeastWaits :
    (∃ t, exec (.start 16#8 2#8) powered = .next t ∧ t.phase = .ready) ∧ (∃ t, exec .home fresh = .next t ∧ t.phase = .ready) ∧
    (∃ t, exec (.createChar 0#8 (List.replicate 8 0#8)) fresh = .next t ∧ t.phase = .ready) ∧ (∃ t, exec .blinkOn fresh = .next t ∧ t.phase = .ready) ∧
    (∃ t, exec (.print [0x41#8]) fresh = .next t ∧ t.phase = .ready) ∧
    (∃ t, exec .readButtons { fresh with lineLevels := List.replicate 5 .low } = .next t ∧ t.phase = .ready) :=
  ⟨⟨_, rfl, rfl⟩, ⟨_, rfl, rfl⟩, ⟨_, rfl, rfl⟩, ⟨_, rfl, rfl⟩, ⟨_, rfl, rfl⟩, ⟨_, rfl, rfl⟩⟩

theorem witness_PinMapIsInjective : Pin.rs ∈ outputLines ++ buttonLines ∧ Pin.btnSelect ∈ outputLines ++ buttonLines ∧ Pin.d3 ∈ [Pin.d0, .d1, .d2, .d3] := by decide

/-- A START that pulls up the lines and ends READY, and an operation that does not. -/
theorem witness_PullUpsOnlyInStart :
    (∃ t, exec (.start 16#8 2#8) powered = .next t ∧ t.phase = .ready) ∧ (∃ t, exec .clear fresh = .next t) ∧ Pin.btnSelect ∈ buttonLines :=
  ⟨⟨_, rfl, rfl⟩, ⟨_, rfl⟩, by decide⟩

end Sys2Proof.Tests
end

section
/-! PROOFS. The statements of 00_scope.md: the pin map (R6, R53), the 8-bit variant (R7, R103, R104, R115) and the durations (R6). -/

namespace Sys2Proof.Machine

open Sys2Proof.Safety

-- PIN MAP: a pin's line is its place in the table of R53, carried through a permutation; so each fact about lines is one about places.

theorem Pin.line_eq_none_iff {p : Pin} : p.line = none ↔ p.ordinal = none := Option.map_eq_none_iff

theorem Pin.line_eq_iff {p q : Pin} : p.line = q.line ↔ p.ordinal = q.ordinal :=
  (Option.map_injective Config.pinMap.injective).eq_iff

theorem Pin.line_eq_some_pinMap_iff {p : Pin} {k : Fin 16} : p.line = some (Config.pinMap k) ↔ p.ordinal = some k :=
  (Option.map_injective Config.pinMap.injective).eq_iff (b := some k)

/-- The fifteen pins of this hardware have a place each. -/
theorem ordinal_ne_none_of_wired : ∀ p ∈ outputLines ++ buttonLines, p.ordinal ≠ none := by decide

/-- The low data lines of the 8-bit bus have none (log 27). -/
theorem ordinal_eq_none_of_unwired : ∀ p ∈ [Pin.d0, .d1, .d2, .d3], p.ordinal = none := by decide

theorem ordinal_injective_of_wired :
    ∀ p ∈ outputLines ++ buttonLines, ∀ q ∈ outputLines ++ buttonLines, p.ordinal = q.ordinal → p = q := by decide

/-- Place 15 is the one that no pin has. -/
theorem Pin.ordinal_ne_fifteen (p : Pin) : p.ordinal ≠ some 15 := by
  cases p <;> decide

theorem exists_wired_ordinal : ∀ k : Fin 16, k ≠ 15 → ∃ p ∈ outputLines ++ buttonLines, p.ordinal = some k := by decide

/-- The unassigned line is the image of place 15; every other line is the image of a place that some pin has. -/
theorem unassigned_line_unique :
    ∃ free : Fin 16, (∀ p : Pin, p.line ≠ some free) ∧ ∀ n : Fin 16, n ≠ free → ∃ p : Pin, p.line = some n := by
  refine ⟨Config.pinMap 15, fun p h => p.ordinal_ne_fifteen (Pin.line_eq_some_pinMap_iff.mp h), fun n hn => ?_⟩
  obtain ⟨k, rfl⟩ := Config.pinMap.surjective n
  obtain ⟨p, -, hp⟩ := exists_wired_ordinal k (mt (congrArg Config.pinMap) hn)
  exact ⟨p, Pin.line_eq_some_pinMap_iff.mpr hp⟩

/-- Settles O59: the fifteen places are distinct and a permutation carries them to the lines; the line of place 15 is the one left over. -/
theorem pinMapIsInjective : Obligations.PinMapIsInjective := by
  refine ⟨fun p hp => ?_, fun p hp q hq h => ?_, unassigned_line_unique, fun p hp => ?_⟩
  · exact mt Pin.line_eq_none_iff.mp (ordinal_ne_none_of_wired p hp)
  · exact ordinal_injective_of_wired p hp q hq (Pin.line_eq_iff.mp h)
  · exact Pin.line_eq_none_iff.mpr (ordinal_eq_none_of_unwired p hp)

-- 8-BIT VARIANT: one equation per bus primitive, for every value of the options that it reads.

theorem pulse_eq_tracePulse : pulse = tracePulse := rfl

theorem levelOf_getLsbD (v : Byte) (i : Nat) : levelOf (v.getLsbD i) = bitLevel v i := rfl

/-- `write8` (R103) with the levels spelled by bit number. -/
theorem write8_eq (v : Byte) :
    write8 v = [ .write .d0 (bitLevel v 0), .write .d1 (bitLevel v 1), .write .d2 (bitLevel v 2), .write .d3 (bitLevel v 3),
                 .write .d4 (bitLevel v 4), .write .d5 (bitLevel v 5), .write .d6 (bitLevel v 6), .write .d7 (bitLevel v 7) ] ++ tracePulse := by
  simp only [write8, levelOf_getLsbD, pulse_eq_tracePulse]

theorem write8_length (v : Byte) : (write8 v).length = 13 := rfl

theorem sendOn_eight_rw (clearSyncs : Bool) (v : Byte) (isData : Bool) :
    sendOn ⟨.eight, true, clearSyncs⟩ v isData = [.write .rs (levelOf isData), .write .rw .low] ++ write8 v := rfl

theorem sendOn_eight_noRw (clearSyncs : Bool) (v : Byte) (isData : Bool) :
    sendOn ⟨.eight, false, clearSyncs⟩ v isData = [.write .rs (levelOf isData)] ++ write8 v := rfl

/-- The synchronisation on eight lines (R115): the function set is sent whole three times, each time with its wait. -/
theorem synchronise_eight (hasRw clearSyncs : Bool) (fs : Byte) :
    let functionSet := sendOn ⟨.eight, hasRw, clearSyncs⟩ (functionSetByte fs) false
    synchronise ⟨.eight, hasRw, clearSyncs⟩ fs =
      functionSet ++ [.wait .sync1] ++ functionSet ++ [.wait .sync2] ++ functionSet ++ [.wait .sync3] := rfl

/-- Settles O15: the equations of `write8`, `sendOn` and `synchronise` at eight lines. -/
theorem eightBitVariantShape : Obligations.EightBitVariantShape := fun v fs =>
  ⟨write8_eq v, write8_length v, sendOn_eight_rw true v, sendOn_eight_noRw true v, synchronise_eight true true fs⟩

-- DURATIONS: two are constants; each other one is its minimum plus an open amount.

/-- Settles O58: what is added to a minimum cannot take the duration below it. -/
theorem durationsMeetMinimums : Obligations.DurationsMeetMinimums := by
  exact ⟨nanoseconds_powerOn, nanoseconds_clear, Nat.le.intro nanoseconds_sync1.symm, Nat.le.intro nanoseconds_sync2.symm,
    Nat.le.intro nanoseconds_sync3.symm, Nat.le.intro nanoseconds_enHigh.symm, Nat.le.intro nanoseconds_settle.symm⟩

end Sys2Proof.Machine
end

section
/-! PROOFS. What every instruction does, in closed form: the registers an operation writes (10_state.md R20), the bytes it sends, and the equation of `exec` for the
requests and for the emitted rows. -/

namespace Sys2Proof.Machine

open Sys2Proof.Safety

/-- `dc` after an instruction (R131 to R136). -/
def dcAfter (dc : Byte) : Instr → Byte
  | .displayOn => setFlag dc flagD
  | .displayOff => clearFlag dc flagD
  | .cursorOn => setFlag dc flagC
  | .cursorOff => clearFlag dc flagC
  | .blinkOn => setFlag dc flagB
  | .blinkOff => clearFlag dc flagB
  | _ => dc

/-- `em` after an instruction (R137 to R140). -/
def emAfter (em : Byte) : Instr → Byte
  | .leftToRight => setFlag em flagID
  | .rightToLeft => clearFlag em flagID
  | .autoscrollOn => setFlag em flagS
  | .autoscrollOff => clearFlag em flagS
  | _ => em

/-- CursorState after an instruction: line and column (R24). -/
def cursorAfter (s : State) : Instr → Byte × Int
  | .clear | .home => (0#8, 0)
  | .setCursor col row => (clampRow s.rows row, col.toNat)
  | .createChar _ _ => (clampRow s.rows 0#8, 0)
  | .print text => (layout s text s.curLine s.curCol).2
  | _ => (s.curLine, s.curCol)

/-- The bytes a request other than START sends, in order. -/
def bytesFor (s : State) : Instr → List OutByte
  | .clear => [⟨false, clearByte⟩]
  | .home => [⟨false, homeByte⟩]
  | .setCursor col row => [⟨false, ddramByte s.rows col row⟩]
  | .displayOn => [⟨false, displayControlByte (dcAfter s.dc .displayOn)⟩]
  | .displayOff => [⟨false, displayControlByte (dcAfter s.dc .displayOff)⟩]
  | .cursorOn => [⟨false, displayControlByte (dcAfter s.dc .cursorOn)⟩]
  | .cursorOff => [⟨false, displayControlByte (dcAfter s.dc .cursorOff)⟩]
  | .blinkOn => [⟨false, displayControlByte (dcAfter s.dc .blinkOn)⟩]
  | .blinkOff => [⟨false, displayControlByte (dcAfter s.dc .blinkOff)⟩]
  | .leftToRight => [⟨false, entryModeByte (emAfter s.em .leftToRight)⟩]
  | .rightToLeft => [⟨false, entryModeByte (emAfter s.em .rightToLeft)⟩]
  | .autoscrollOn => [⟨false, entryModeByte (emAfter s.em .autoscrollOn)⟩]
  | .autoscrollOff => [⟨false, entryModeByte (emAfter s.em .autoscrollOff)⟩]
  | .scrollLeft => [⟨false, cursorShiftByte true false⟩]
  | .scrollRight => [⟨false, cursorShiftByte true true⟩]
  | .createChar slot glyph => ⟨false, cgramByte slot⟩ :: (glyph.map (⟨true, ·⟩) ++ [⟨false, ddramByte s.rows 0#8 0#8⟩])
  | .print text => (layout s text s.curLine s.curCol).1
  | _ => []

theorem bytesFor_createChar (s : State) (slot : Byte) (glyph : List Byte) :
    bytesFor s (.createChar slot glyph) = ⟨false, cgramByte slot⟩ :: (glyph.map (⟨true, ·⟩) ++ [⟨false, ddramByte s.rows 0#8 0#8⟩]) := rfl

/-- What a request emits beside its bytes and the reads of READ_BUTTONS: the long wait (R152, R153), the backlight's writes (R161). -/
def trailFor : Instr → List Event
  | .clear | .home => [.wait .clear]
  | .setBacklight colorCode => backlightWrites colorCode
  | _ => []

/-- The effect of a request other than START and READ_BUTTONS: its registers, its bytes, the response done. -/
def requestEffect (i : Instr) (s : State) : State :=
  { s with
    dc := dcAfter s.dc i
    em := emAfter s.em i
    curLine := (cursorAfter s i).1
    curCol := (cursorAfter s i).2
    trace := s.trace ++ (sendAll (bytesFor s i) ++ trailFor i)
    responses := s.responses ++ [.done] }

/-- What an emitted row puts on the bus (R75 to R84). -/
def rowEvents : Instr → List Event
  | .lcdClearDisplay => clearTransfer
  | .lcdReturnHome => homeTransfer
  | .lcdEntryModeSet i h => command (entryModeByte (packEntry i h))
  | .lcdDisplayControl d c b => command (displayControlByte (packDisplay d c b))
  | .lcdCursorShift sc rl => command (cursorShiftByte sc rl)
  | .lcdFunctionSet dl n f => command (functionSetByte (packFunction dl n f))
  | .lcdSetCgramAddr addr => command (0x40#8 ||| addr.setWidth 8)
  | .lcdSetDdramAddr addr => command (0x80#8 ||| addr.setWidth 8)
  | .lcdData v => data v
  | .lcdInitNibble n => write4 (initNibble n)
  | _ => []

/-- An emitted row adds its events and writes no register. -/
theorem exec_row_eq {i : Instr} (hr : i.isRequest = false) (s : State) : exec i s = unlessFault s (State.emit (rowEvents i)) := by
  cases i <;> simp only [Instr.isRequest, reduceCtorEq] at hr <;> rfl

theorem sendAll_command (v : Byte) : sendAll [⟨false, v⟩] = command v := sendAll_singleton v false

theorem createChar_effect (slot : Byte) (glyph : List Byte) (s : State) :
    (((s.command (cgramByte slot)).emit (glyphTransfer glyph)).setCursor 0#8 0#8).respond .done = requestEffect (.createChar slot glyph) s := by
  have hbytes : sendAll (bytesFor s (.createChar slot glyph)) = command (cgramByte slot) ++ (glyphTransfer glyph ++ command (ddramByte s.rows 0#8 0#8)) := by
    simp only [bytesFor_createChar, sendAll, sendAll_append, sendAll_data, command, List.append_nil]
  have hcursor : cursorAfter s (.createChar slot glyph) = (clampRow s.rows 0#8, ((0#8).toNat : Int)) := rfl
  simp only [requestEffect, hbytes, hcursor, dcAfter, emAfter, State.command, State.emit, State.setCursor, State.moveCursor, State.respond, trailFor,
    List.append_nil, List.append_assoc]

theorem print_effect (text : List Byte) (s : State) :
    (printLoop text s.curLine s.curCol s).respond .done = requestEffect (.print text) s := by
  simp only [printLoop_eq, requestEffect, trailFor, List.append_nil]
  rfl

/-- Every request but START and READ_BUTTONS has the precondition READY and the effect above. -/
theorem exec_request_eq {i : Instr} (hr : i.isRequest = true) (hn : ∀ c r, i ≠ .start c r) (hb : i ≠ .readButtons) (s : State) :
    exec i s = whenReady s (requestEffect i) := by
  cases i <;> simp only [Instr.isRequest, reduceCtorEq] at hr
  case start c r => exact absurd rfl (hn c r)
  case readButtons => exact absurd rfl hb
  case print text => simp only [exec, execPrint, whenReady, print_effect]
  case createChar slot glyph => simp only [exec, execCreateChar, whenReady, createChar_effect]
  case setBacklight => rfl
  all_goals
    unfold requestEffect bytesFor
    simp only [sendAll_command, trailFor, List.append_nil]
    rfl

/-- An emitted row writes none of the shadows and not the cursor. -/
theorem registersAfter_of_row {i : Instr} (hr : i.isRequest = false) (s : State) :
    dcAfter s.dc i = s.dc ∧ emAfter s.em i = s.em ∧ cursorAfter s i = (s.curLine, s.curCol) := by
  cases i <;> simp only [Instr.isRequest, reduceCtorEq] at hr <;> exact ⟨rfl, rfl, rfl⟩

/-- READ_BUTTONS adds its five reads and its response, and writes no register (R180). -/
theorem execReadButtons_cases {s t : State} (h : exec .readButtons s = .next t) :
    s.phase = .ready ∧ ∃ (u d l r e : Level) (mask : BitVec 5) (levels : List Level) (draws : Nat), t = { s with
      trace := s.trace ++ [.read .btnUp u, .read .btnDown d, .read .btnLeft l, .read .btnRight r, .read .btnSelect e]
      responses := s.responses ++ [.doneMask mask], lineLevels := levels, draws := draws } := by
  simp only [exec, execReadButtons] at h
  obtain ⟨hp, rfl⟩ := whenReady_eq_next.mp h
  obtain ⟨ls, levels, draws, hlen, heq⟩ := pollButtons_spec buttonPins 0#5 s
  match ls, hlen with
  | [u, d, l, r, e], _ => exact ⟨hp, u, d, l, r, e, _, levels, draws, by rw [heq]; rfl⟩

/-- The registers that instructions other than START write, after any of them that completes. -/
theorem exec_registers {i : Instr} {s t : State} (hn : ∀ c r, i ≠ .start c r) (h : exec i s = .next t) :
    t.dc = dcAfter s.dc i ∧ t.em = emAfter s.em i ∧ (t.curLine, t.curCol) = cursorAfter s i := by
  cases hr : i.isRequest with
  | false =>
    obtain ⟨hdc, hem, hcursor⟩ := registersAfter_of_row hr s
    rw [exec_row_eq hr] at h
    obtain ⟨-, rfl⟩ := unlessFault_eq_next.mp h
    exact ⟨hdc.symm, hem.symm, hcursor.symm⟩
  | true =>
    by_cases hb : i = .readButtons
    · subst hb
      obtain ⟨-, -, -, -, -, -, -, -, -, rfl⟩ := execReadButtons_cases h
      exact ⟨rfl, rfl, rfl⟩
    · rw [exec_request_eq hr hn hb] at h
      obtain ⟨-, rfl⟩ := whenReady_eq_next.mp h
      exact ⟨rfl, rfl, rfl⟩

end Sys2Proof.Machine
end

section
/-! PROOFS. Every step keeps the registers legal (10_state.md R22, R23, R25 to R27, R37). -/

namespace Sys2Proof.Machine

open Sys2Proof.Safety

-- ONE STEP

/-- A property of states that a reset, a fetched instruction, a fetched instruction cut short and a change of the schedule keep is kept by every step. -/
theorem step_keeps {P : State → Prop}
    (hreset : ∀ s, P s → P s.resetBlock)
    (hrun : ∀ {i s s' t}, P s → fetch s = .run i s' → exec i s' = .next t → P t)
    (hcut : ∀ {i s s' t} k, P s → fetch s = .run i s' → exec i s' = .next t → P (cutShort k s' t))
    (hschedule : ∀ s interruption, P s → P { s with interruption })
    {s t : State} (hs : P s) (h : step s = .next t) : P t := by
  obtain ⟨-, rfl⟩ | ⟨-, rfl⟩ | ⟨i, s', t', -, hf, he, hi⟩ := step_cases h
  · exact hreset s hs
  · exact hs
  · obtain ⟨interruption, rfl⟩ | ⟨k, -, -, rfl⟩ := interrupted_cases hi
    · exact hschedule t' interruption (hrun hs hf he)
    · exact hcut k hs hf he

-- BOUNDS OF THE SHADOWS AND OF THE COLUMN

/-- A flag of n bits set in a shadow of n bits leaves n bits. -/
theorem setFlag_toNat_lt {n : Nat} {shadow bit : Byte} (hs : shadow.toNat < 2 ^ n) (hb : bit.toNat < 2 ^ n) : (setFlag shadow bit).toNat < 2 ^ n := by
  rw [setFlag, BitVec.toNat_or]
  exact Nat.or_lt_two_pow hs hb

theorem clearFlag_toNat_le (shadow bit : Byte) : (clearFlag shadow bit).toNat ≤ shadow.toNat := by
  rw [clearFlag, BitVec.toNat_and]
  exact Nat.and_le_left

theorem dcAfter_toNat_lt {dc : Byte} (h : dc.toNat < 2 ^ 3) (i : Instr) : (dcAfter dc i).toNat < 2 ^ 3 := by
  cases i with
  | displayOn | cursorOn | blinkOn => exact setFlag_toNat_lt h (by decide)
  | displayOff | cursorOff | blinkOff => exact (clearFlag_toNat_le ..).trans_lt h
  | _ => exact h

theorem emAfter_toNat_lt {em : Byte} (h : em.toNat < 2 ^ 2) (i : Instr) : (emAfter em i).toNat < 2 ^ 2 := by
  cases i with
  | leftToRight | autoscrollOn => exact setFlag_toNat_lt h (by decide)
  | rightToLeft | autoscrollOff => exact (clearFlag_toNat_le ..).trans_lt h
  | _ => exact h

/-- The column after the first byte of a new row: 1 left-to-right, `columns - 2` right-to-left. -/
theorem resetCol_add_stepCol_bounds (s : State) :
    -1 ≤ ((resetCol s).toNat : Int) + stepCol s ∧ ((resetCol s).toNat : Int) + stepCol s ≤ 255 := by
  unfold resetCol stepCol
  split
  · decide
  · have hlt := (s.columns - 1#8).isLt
    omega

/-- PRINT's column stays in -1..255: a byte is written only with the column in the row, and a wrap starts from a byte's value (R37, R172). -/
theorem layout_column_bounds (s : State) (text : List Byte) (line : Byte) {col : Int} (hlo : -1 ≤ col) (hhi : col ≤ 255) :
    -1 ≤ (layout s text line col).2.2 ∧ (layout s text line col).2.2 ≤ 255 := by
  induction text generalizing line col with
  | nil => exact ⟨hlo, hhi⟩
  | cons ch rest ih =>
    unfold layout
    split
    · have hlt := (resetCol s).isLt
      exact ih _ (by omega) (by omega)
    · split
      · exact ih _ (resetCol_add_stepCol_bounds s).1 (resetCol_add_stepCol_bounds s).2
      · next hin =>
        have hlt := s.columns.isLt
        have hstep : stepCol s = 1 ∨ stepCol s = -1 := by unfold stepCol; split <;> simp
        simp only [pastRow, Bool.or_eq_true, decide_eq_true_eq, not_or, not_lt] at hin
        exact ih _ (by omega) (by omega)

theorem cursorAfter_column_bounds {s : State} (hlo : -1 ≤ s.curCol) (hhi : s.curCol ≤ 255) (i : Instr) :
    -1 ≤ (cursorAfter s i).2 ∧ (cursorAfter s i).2 ≤ 255 := by
  cases i with
  | clear | home | createChar => simp [cursorAfter]
  | setCursor col row =>
    have hlt := col.isLt
    dsimp only [cursorAfter]
    omega
  | print text => exact layout_column_bounds s text s.curLine hlo hhi
  | _ => exact ⟨hlo, hhi⟩

-- LEGAL REGISTERS

/-- A block in UNINIT with fault code 0, as every reset leaves it, has legal registers: no other register is claimed anything of before START (R36). -/
theorem registersLegal_of_uninit {s : State} (hp : s.phase = .uninit) (hf : s.faultCode = 0#2) : RegistersLegal s :=
  ⟨by rw [hp, hf]; rfl, by simp [hp]⟩

/-- START ends with the registers of R36 in READY, or in FAULT with fault code 1, where nothing more is claimed. -/
theorem execStart_registersLegal {cols rows : Byte} {s t : State} (hs : RegistersLegal s) (h : execStart cols rows s = .next t) : RegistersLegal t := by
  obtain ⟨hp, hgood, evs, answers, draws, ⟨-, rfl⟩ | ⟨-, -, rfl⟩⟩ := execStart_cases h
  · have hcode : s.faultCode = 0#2 := by simpa [hp] using hs.1
    have hgeometry : validGeometry cols rows := (goodGeometry_iff cols rows).mp hgood
    have hfs : functionShadow hardware rows = if rows = 1#8 then 0x00#8 else 0x08#8 := by
      obtain ⟨-, rfl | rfl | rfl⟩ := hgeometry <;> decide
    have hbounds : startDisplay ≤ 0x07#8 ∧ startEntry ≤ 0x03#8 ∧ (-1 : Int) ≤ 0 ∧ (0 : Int) ≤ 255 := by decide
    obtain ⟨body, hbody⟩ := startBody_spec { s with columns := cols, rows := rows, trace := s.trace ++ evs, adapterAnswers := answers, draws := draws }
    rw [hbody]
    exact ⟨hcode, fun _ => ⟨hgeometry, hfs, hbounds⟩⟩
  · exact ⟨rfl, by simp⟩

theorem exec_registersLegal {i : Instr} {s t : State} (hs : RegistersLegal s) (h : exec i s = .next t) : RegistersLegal t := by
  by_cases hn : ∀ c r, i ≠ .start c r
  · obtain ⟨-, -, -, hphase, hcode, hcolumns, hrows, hfs, -, -, -⟩ := exec_adds hn h
    obtain ⟨hdc, hem, hcursor⟩ := exec_registers hn h
    obtain ⟨hscode, hsready⟩ := hs
    refine ⟨by rw [hcode, hphase, hscode], fun hready => ?_⟩
    obtain ⟨hgeometry, hsfs, hsdc, hsem, hlo, hhi⟩ := hsready (hphase ▸ hready)
    have hcol : t.curCol = (cursorAfter s i).2 := congrArg Prod.snd hcursor
    have hbounds := cursorAfter_column_bounds hlo hhi i
    rw [hcolumns, hrows, hfs, hdc, hem, hcol]
    exact ⟨hgeometry, hsfs, Nat.le_of_lt_succ (dcAfter_toNat_lt (Nat.lt_succ_of_le hsdc) i),
      Nat.le_of_lt_succ (emAfter_toNat_lt (Nat.lt_succ_of_le hsem) i), hbounds⟩
  · push Not at hn
    obtain ⟨cols, rows, rfl⟩ := hn
    exact execStart_registersLegal hs h

/-- A fetch touches no register but the micro-step and the port. -/
theorem fetch_registersLegal {i : Instr} {s s' : State} (hs : RegistersLegal s) (h : fetch s = .run i s') : RegistersLegal s' := by
  obtain ⟨_, -, -, rfl⟩ | ⟨_, -, -, rfl⟩ := fetch_run_cases h <;> exact hs

/-- Settles O50: a reset leaves UNINIT; START leaves the registers of R36 or FAULT; every other instruction keeps the bounds of dc, em and the column. -/
theorem everyStepKeepsRegistersLegal : Obligations.EveryStepKeepsRegistersLegal := by
  intro s t hs h
  exact step_keeps (fun _ _ => registersLegal_of_uninit rfl rfl)
    (fun hs hf he => exec_registersLegal (fetch_registersLegal hs hf) he)
    (fun _ _ _ _ => registersLegal_of_uninit rfl rfl) (fun _ _ hs => hs) hs h

end Sys2Proof.Machine
end

section
/-! PROOFS. The block writes only lines it has set to Output (20_memory.md R44): configured lines along a trace, which lines an operation writes, and the step. -/

namespace Sys2Proof.Machine

open Sys2Proof.Safety

-- CONFIGURED LINES ALONG A TRACE

/-- The line an event configures as an output, if any. -/
def Event.outputSet : Event → List Pin
  | .mode p .output => [p]
  | _ => []

/-- The lines configured after a list of events, from those configured before. -/
def configuredBy : List Event → List Pin → List Pin
  | [], done => done
  | e :: rest, done => configuredBy rest (e.outputSet ++ done)

theorem Event.mem_outputSet {p : Pin} {e : Event} : p ∈ e.outputSet ↔ e = .mode p .output := by
  unfold Event.outputSet
  split
  · next q => simp [eq_comm]
  · next hne => simpa using fun he => hne p he

theorem mem_configuredBy {p : Pin} {evs : List Event} {done : List Pin} :
    p ∈ configuredBy evs done ↔ p ∈ done ∨ .mode p .output ∈ evs := by
  induction evs generalizing done with
  | nil => simp [configuredBy]
  | cons e rest ih =>
    rw [configuredBy, ih, List.mem_append, Event.mem_outputSet, List.mem_cons, eq_comm (a := e)]
    tauto

theorem writesConfigured_cons {done : List Pin} {e : Event} {rest : List Event} :
    writesConfigured done (e :: rest) ↔ (∀ p l, e = .write p l → p ∈ done) ∧ writesConfigured (e.outputSet ++ done) rest := by
  cases e with
  | mode p d => cases d <;> simp [writesConfigured, Event.outputSet]
  | _ => simp [writesConfigured, Event.outputSet]

theorem writesConfigured_append {done : List Pin} {a b : List Event} :
    writesConfigured done (a ++ b) ↔ writesConfigured done a ∧ writesConfigured (configuredBy a done) b := by
  induction a generalizing done with
  | nil => simp [writesConfigured, configuredBy]
  | cons e rest ih => rw [List.cons_append, writesConfigured_cons, writesConfigured_cons, ih, configuredBy, and_assoc]

theorem writesConfigured_of_mem {done : List Pin} {evs : List Event} (h : ∀ p l, .write p l ∈ evs → p ∈ done) : writesConfigured done evs := by
  induction evs generalizing done with
  | nil => trivial
  | cons e rest ih =>
    refine writesConfigured_cons.mpr ⟨fun p l he => h p l (he ▸ List.mem_cons_self), ih fun p l hmem => ?_⟩
    exact List.mem_append_right _ (h p l (List.mem_cons_of_mem _ hmem))

/-- A trace may go on with writes to the lines it has configured. -/
theorem writesConfigured_extend {a b : List Event} (ha : writesConfigured [] a) (hb : ∀ p l, .write p l ∈ b → .mode p .output ∈ a) :
    writesConfigured [] (a ++ b) :=
  writesConfigured_append.mpr ⟨ha, writesConfigured_of_mem fun p l hmem => mem_configuredBy.mpr (.inr (hb p l hmem))⟩

/-- A trace cut short was legal already. -/
theorem writesConfigured_of_prefix {done : List Pin} {a b : List Event} (hb : writesConfigured done b) (h : a <+: b) : writesConfigured done a := by
  obtain ⟨c, rfl⟩ := h
  exact (writesConfigured_append.mp hb).1

-- WHICH LINES AN OPERATION WRITES

/-- An event writes no line but the ten outputs. -/
def Event.writesOutput : Event → Bool
  | .write p _ => decide (p ∈ outputLines)
  | _ => true

theorem mem_outputLines_of_write {evs : List Event} (h : evs.all Event.writesOutput = true) {p : Pin} {l : Level} (hmem : .write p l ∈ evs) :
    p ∈ outputLines := by
  simpa [Event.writesOutput] using List.all_eq_true.mp h _ hmem

theorem send_writesOutput (v : Byte) (isData : Bool) : (send v isData).all Event.writesOutput = true := rfl

theorem sendAll_writesOutput (bs : List OutByte) : (sendAll bs).all Event.writesOutput = true := by
  induction bs with
  | nil => rfl
  | cons b bs ih => rw [sendAll, List.all_append, send_writesOutput, ih, Bool.and_self]

theorem Adds.writesOutput {evs : List Event} (h : Adds evs) : evs.all Event.writesOutput = true := by
  cases h with
  | bytes bs => exact sendAll_writesOutput bs
  | bytesThenClearWait bs => rw [List.all_append, sendAll_writesOutput]; rfl
  | backlight | buttons | nibble => rfl

-- START

/-- The events of START's body (R112 to R120). -/
def startEvents (rows : Byte) : List Event :=
  [.wait .powerOn] ++ controlLow hardware ++ synchronise hardware (functionShadow hardware rows)
    ++ command (functionSetByte (functionShadow hardware rows)) ++ command (displayControlByte startDisplay) ++ clearTransfer
    ++ command (entryModeByte startEntry) ++ command (ddramByte rows 0#8 0#8)

theorem startBody_eq (s : State) : startBody s =
    { s with
      phase := .ready, fs := functionShadow hardware s.rows, dc := startDisplay, em := startEntry,
      curLine := clampRow s.rows 0#8, curCol := 0, trace := s.trace ++ startEvents s.rows, responses := s.responses ++ [.done] } := by
  simp [startBody, startEvents, State.emit, State.command, State.setCursor, State.moveCursor, State.respond]

theorem startEvents_writesOutput (rows : Byte) : (startEvents rows).all Event.writesOutput = true := by
  simp only [startEvents, List.all_append, command, clearTransfer, send_writesOutput]
  rfl

theorem prologue_writes_nothing (p : Pin) (l : Level) : .write p l ∉ prologue hardware := by
  simp [prologue, outputPins, hardware, buttonPins]

theorem prologue_configures_outputs : ∀ p ∈ outputLines, .mode p .output ∈ prologue hardware := by decide

-- THE STEP

theorem requestOf_isRequest {op a b : Byte} {payload : List Byte} {i : Instr} (h : requestOf op a b payload = some i) : i.isRequest = true := by
  unfold requestOf at h
  split at h <;> cases h <;> rfl

theorem decodeRequest_isRequest {bytes rest : List Byte} {i : Instr} (h : decodeRequest bytes = .ok (i, rest)) : i.isRequest = true := by
  unfold decodeRequest at h
  split at h
  · split at h
    · cases h
    · next hi =>
      split at h
      · cases h
      · cases h; exact requestOf_isRequest hi
  · cases h

/-- A sequencer that holds no unit runs a request. -/
theorem fetch_request_of_no_unit {s s' : State} {i : Instr} (hm : s.microStep = none) (h : fetch s = .run i s') :
    i.isRequest = true ∧ ∃ rest, s' = { s with requests := rest } := by
  obtain ⟨u, hu, -, -⟩ | ⟨rest, -, hd, rfl⟩ := fetch_run_cases h
  · simp [hm] at hu
  · exact ⟨decodeRequest_isRequest hd, rest, rfl⟩

theorem execStart_linesConfigured {cols rows : Byte} {s t : State} (hs : LinesConfigured s) (h : execStart cols rows s = .next t) :
    LinesConfigured t := by
  obtain ⟨hm, hwrites, -⟩ := hs
  have hprologue : ∀ {evs}, evs <+: prologue hardware → writesConfigured [] (s.trace ++ evs) := fun hp =>
    writesConfigured_extend hwrites fun p l hmem => absurd (hp.subset hmem) (prologue_writes_nothing p l)
  obtain ⟨-, -, evs, answers, draws, ⟨rfl, rfl⟩ | ⟨hp, -, rfl⟩⟩ := execStart_cases h
  · have hmodes : ∀ p ∈ outputLines, .mode p .output ∈ s.trace ++ prologue hardware := fun p hp =>
      List.mem_append_right _ (prologue_configures_outputs p hp)
    rw [startBody_eq]
    refine ⟨hm, writesConfigured_extend (hprologue List.prefix_rfl) fun p l hmem => ?_, fun _ p hp => List.mem_append_left _ (hmodes p hp)⟩
    exact hmodes p (mem_outputLines_of_write (startEvents_writesOutput rows) hmem)
  · exact ⟨hm, hprologue hp, by simp⟩

theorem exec_linesConfigured {i : Instr} {s t : State} (hr : i.isRequest = true) (hs : LinesConfigured s) (h : exec i s = .next t) :
    LinesConfigured t := by
  by_cases hn : ∀ c r, i ≠ .start c r
  · obtain ⟨hready, -, ⟨evs, hadds, htrace⟩, -, -, -, -, -, hmicro, -, -⟩ := exec_adds hn h
    obtain ⟨hm, hwrites, hmodes⟩ := hs
    have hall := hmodes (hready hr)
    rw [LinesConfigured, htrace, hmicro]
    exact ⟨hm, writesConfigured_extend hwrites fun p l hmem => hall p (mem_outputLines_of_write hadds.writesOutput hmem),
      fun _ p hp => List.mem_append_left _ (hall p hp)⟩
  · push Not at hn
    obtain ⟨cols, rows, rfl⟩ := hn
    exact execStart_linesConfigured hs h

theorem run_linesConfigured {i : Instr} {s s' t : State} (hs : LinesConfigured s) (hf : fetch s = .run i s') (h : exec i s' = .next t) :
    LinesConfigured t := by
  obtain ⟨hm, -⟩ := id hs
  obtain ⟨hr, rest, rfl⟩ := fetch_request_of_no_unit hm hf
  exact exec_linesConfigured (s := { s with requests := rest }) hr hs h

/-- The trace of an operation cut short is an initial part of the whole operation's. -/
theorem cutShort_trace_prefix {i : Instr} {s t : State} (k : Nat) (h : exec i s = .next t) : (cutShort k s t).trace <+: t.trace := by
  obtain ⟨evs, hevs⟩ := exec_appends h
  obtain ⟨answers, levels, draws, hcut⟩ := cutShort_spec k s t
  rw [hcut, hevs, newEvents, hevs, List.drop_left]
  exact (List.prefix_append_right_inj s.trace).mpr (List.take_prefix k evs)

/-- A reset drops the unit and leaves the trace; in UNINIT no line need be configured. -/
theorem linesConfigured_of_uninit {s : State} (hp : s.phase = .uninit) (hm : s.microStep = none) (hw : writesConfigured [] s.trace) :
    LinesConfigured s := ⟨hm, hw, by simp [hp]⟩

/-- Settles O52: START configures the ten lines before it writes, a READY block has them configured, and a legal trace cut short is legal. -/
theorem everyStepKeepsLinesConfigured : Obligations.EveryStepKeepsLinesConfigured := by
  intro s t hs h
  refine step_keeps (fun s hs => ?_) run_linesConfigured (fun k hs hf he => ?_) (fun _ _ hs => hs) hs h
  · obtain ⟨-, hwrites, -⟩ := hs
    exact linesConfigured_of_uninit rfl rfl hwrites
  · obtain ⟨-, hwrites, -⟩ := run_linesConfigured hs hf he
    exact linesConfigured_of_uninit rfl rfl (writesConfigured_of_prefix hwrites (cutShort_trace_prefix k he))

end Sys2Proof.Machine
end

section
/-! PROOFS. What may write a register and what may change the phase (10_state.md R20, R21, R32), the reset state (R36), and the step on a held unit (R91). -/

namespace Sys2Proof.Machine

open Sys2Proof.Safety

-- RESET

/-- Settles O48: the fields of the reset state. -/
theorem resetStateAsSpecified : Obligations.ResetStateAsSpecified := ⟨rfl, rfl, rfl, rfl, rfl⟩

/-- Settles O49: the reset state is in UNINIT with an empty trace, where the three invariants ask for little. -/
theorem invariantsHoldAtReset : Obligations.InvariantsHoldAtReset :=
  ⟨registersLegal_of_uninit rfl rfl, List.forall_mem_nil _, linesConfigured_of_uninit rfl rfl trivial⟩

-- THE STEP WITH NO INTERRUPTION

theorem interrupted_of_none {before : State} (h : before.interruption = none) (after : State) : interrupted before after = .next after := by
  unfold interrupted; rw [h]

/-- With no interruption scheduled a step is the instruction it fetches. -/
theorem step_eq_exec_of_fetch {s s' : State} {i : Instr} (hs : s.interruption = none) (hf : fetch s = .run i s') (hs' : s'.interruption = none) :
    step s = exec i s' := by
  rw [step_of_no_reset (by simp [hs]), hf]
  cases he : exec i s' with
  | next t => simp only [he, interrupted_of_none hs']
  | fault r => simp only [he]
  | refused r => simp only [he]

/-- Settles O7: the sequencer's unit is fetched first, and nothing interrupts it. -/
theorem stepRunsEmittedUnit : Obligations.StepRunsEmittedUnit := fun _ _ _ hi hm hd =>
  step_eq_exec_of_fetch hi (fetch_of_unit hm hd) hi

-- THE PHASE

theorem decodeUnit_isRequest {u : BusUnit} {i : Instr} (h : decodeUnit u = .ok i) : i.isRequest = false := by
  have hrows : ∀ row ∈ commandRows, ∀ v, (row.build v).isRequest = false := by simp [commandRows, Instr.isRequest]
  unfold decodeUnit at h
  split at h
  · split at h
    · next row hrow => cases h; exact hrows row (List.mem_of_find?_eq_some hrow) _
    · cases h
  · cases h; rfl
  · split at h <;> cases h
    rfl

/-- START comes from the port alone. -/
theorem decodeRequest_of_fetch_start {s s' : State} {cols rows : Byte} (h : fetch s = .run (.start cols rows) s') :
    ∃ rest, decodeRequest s.requests = .ok (.start cols rows, rest) := by
  obtain ⟨u, -, hd, -⟩ | ⟨rest, -, hd, -⟩ := fetch_run_cases h
  · cases decodeUnit_isRequest hd
  · exact ⟨rest, hd⟩

theorem fetch_keeps_phase {s s' : State} {i : Instr} (h : fetch s = .run i s') : s'.phase = s.phase ∧ s'.interruption = s.interruption := by
  obtain ⟨_, -, -, rfl⟩ | ⟨_, -, -, rfl⟩ := fetch_run_cases h <;> exact ⟨rfl, rfl⟩

/-- An instruction that changes the phase is START, run in UNINIT (R21). -/
theorem start_of_phase_ne {i : Instr} {s t : State} (h : exec i s = .next t) (hne : t.phase ≠ s.phase) :
    s.phase = .uninit ∧ ∃ cols rows, i = .start cols rows := by
  by_cases hn : ∀ c r, i ≠ .start c r
  · obtain ⟨-, -, -, hphase, -⟩ := exec_adds hn h
    exact absurd hphase hne
  · push Not at hn
    obtain ⟨cols, rows, rfl⟩ := hn
    obtain ⟨hp, -⟩ := execStart_cases h
    exact ⟨hp, cols, rows, rfl⟩

/-- Settles O45: by what a step can do; a reset, now or in the middle of an operation, leads to UNINIT, and of the instructions only START changes the phase. -/
theorem phaseChangesOnlyByStartOrReset : Obligations.PhaseChangesOnlyByStartOrReset := by
  intro s t h hne
  obtain ⟨hreset, rfl⟩ | ⟨-, rfl⟩ | ⟨i, s', t', -, hf, he, hi⟩ := step_cases h
  · exact .inr ⟨hne.symm, rfl, 0, hreset⟩
  · exact absurd rfl hne
  · obtain ⟨hphase, hschedule⟩ := fetch_keeps_phase hf
    obtain ⟨_, rfl⟩ | ⟨k, hk, -, rfl⟩ := interrupted_cases hi
    · obtain ⟨hp, cols, rows, rfl⟩ := start_of_phase_ne he (hphase ▸ hne)
      exact .inl ⟨hphase ▸ hp, cols, rows, decodeRequest_of_fetch_start hf⟩
    · exact .inr ⟨hne.symm, rfl, k, hschedule ▸ hk⟩

-- THE WRITERS OF A REGISTER

theorem cursor_writer_of_ne {s : State} {i : Instr} (h : cursorAfter s i ≠ (s.curLine, s.curCol)) :
    i = .clear ∨ i = .home ∨ (∃ c r, i = .setCursor c r) ∨ (∃ slot g, i = .createChar slot g) ∨ ∃ x, i = .print x := by
  cases i with
  | clear | home | setCursor | createChar | print => simp
  | _ => exact absurd rfl h

theorem display_toggle_of_ne {dc : Byte} {i : Instr} (h : dcAfter dc i ≠ dc) :
    i ∈ [Instr.displayOn, .displayOff, .cursorOn, .cursorOff, .blinkOn, .blinkOff] := by
  cases i with
  | displayOn | displayOff | cursorOn | cursorOff | blinkOn | blinkOff => simp
  | _ => exact absurd rfl h

theorem entry_toggle_of_ne {em : Byte} {i : Instr} (h : emAfter em i ≠ em) :
    i ∈ [Instr.leftToRight, .rightToLeft, .autoscrollOn, .autoscrollOff] := by
  cases i with
  | leftToRight | rightToLeft | autoscrollOn | autoscrollOff => simp
  | _ => exact absurd rfl h

/-- START leaves the unit, the port and the schedule. -/
theorem execStart_frame {cols rows : Byte} {s t : State} (h : execStart cols rows s = .next t) :
    t.microStep = s.microStep ∧ t.requests = s.requests ∧ t.interruption = s.interruption := by
  obtain ⟨-, -, evs, answers, draws, ⟨-, rfl⟩ | ⟨-, -, rfl⟩⟩ := execStart_cases h
  · rw [startBody_eq]; exact ⟨rfl, rfl, rfl⟩
  · exact ⟨rfl, rfl, rfl⟩

/-- Settles O46: START may write every register; of the others each register has its own writers. -/
theorem registersHaveOnlyListedWriters : Obligations.RegistersHaveOnlyListedWriters := by
  intro i s t h
  by_cases hn : ∀ c r, i ≠ .start c r
  · obtain ⟨-, -, -, hphase, hcode, hcolumns, hrows, hfs, hframe⟩ := exec_adds hn h
    obtain ⟨hdc, hem, hcursor⟩ := exec_registers hn h
    refine ⟨fun hne => ?_, fun hne => .inr (cursor_writer_of_ne (s := s) fun heq => ?_), fun hne => .inr (display_toggle_of_ne (hdc ▸ hne)),
      fun hne => .inr (entry_toggle_of_ne (hem ▸ hne)), hframe⟩
    · simp [hphase, hcode, hcolumns, hrows, hfs] at hne
    · rw [← hcursor, Prod.mk.injEq] at heq
      simp [heq] at hne
  · push Not at hn
    obtain ⟨cols, rows, rfl⟩ := hn
    exact ⟨fun _ => ⟨cols, rows, rfl⟩, fun _ => .inl ⟨cols, rows, rfl⟩, fun _ => .inl ⟨cols, rows, rfl⟩, fun _ => .inl ⟨cols, rows, rfl⟩,
      execStart_frame h⟩

end Sys2Proof.Machine
end

section
/-! PROOFS. No instruction reads the trace or the responses (10_state.md R33). -/

namespace Sys2Proof.Machine

open Sys2Proof.Safety

/-- The state with a history put in front of its own. -/
def State.withHistory (trace : List Event) (responses : List Response) (s : State) : State :=
  { s with trace := trace ++ s.trace, responses := responses ++ s.responses }

/-- A precondition on the phase lets a change of the state through that the effect lets through. -/
theorem whenReady_mapNext {s s' : State} {f g : State → State} (hphase : s'.phase = s.phase) (hf : f s' = g (f s)) :
    whenReady s' f = mapNext g (whenReady s f) := by
  unfold whenReady
  rw [hphase, hf]
  cases s.phase <;> rfl

theorem unlessFault_mapNext {s s' : State} {f g : State → State} (hphase : s'.phase = s.phase) (hf : f s' = g (f s)) :
    unlessFault s' f = mapNext g (unlessFault s f) := by
  unfold unlessFault
  rw [hphase, hf]
  cases s.phase <;> rfl

section
variable (trace : List Event) (responses : List Response)

-- THE OPERATIONS

theorem emit_withHistory (evs : List Event) (s : State) : (s.withHistory trace responses).emit evs = (s.emit evs).withHistory trace responses := by
  simp [State.withHistory, State.emit]

theorem respond_withHistory (r : Response) (s : State) :
    (s.withHistory trace responses).respond r = (s.respond r).withHistory trace responses := by
  simp [State.withHistory, State.respond]

theorem takeAnswer_withHistory (s : State) :
    (s.withHistory trace responses).takeAnswer = (s.takeAnswer.1, s.takeAnswer.2.withHistory trace responses) := by
  unfold State.takeAnswer
  cases h : s.adapterAnswers <;> simp [State.withHistory, h]

theorem takeLevel_withHistory (s : State) :
    (s.withHistory trace responses).takeLevel = (s.takeLevel.1, s.takeLevel.2.withHistory trace responses) := by
  unfold State.takeLevel
  cases h : s.lineLevels <;> simp [State.withHistory, h]

theorem pinRead_withHistory (p : Pin) (s : State) :
    (s.withHistory trace responses).pinRead p = ((s.pinRead p).1, (s.pinRead p).2.withHistory trace responses) := by
  simp only [State.pinRead, takeLevel_withHistory, emit_withHistory]

theorem pollButtons_withHistory (ps : List Pin) (mask : BitVec 5) (s : State) :
    pollButtons ps mask (s.withHistory trace responses) = ((pollButtons ps mask s).1, (pollButtons ps mask s).2.withHistory trace responses) := by
  induction ps generalizing mask s with
  | nil => rfl
  | cons p ps ih => simp only [pollButtons, pinRead_withHistory, ih]

theorem issue_withHistory (calls : List Event) (s : State) :
    State.issue calls (s.withHistory trace responses) = ((State.issue calls s).1, (State.issue calls s).2.withHistory trace responses) := by
  induction calls generalizing s with
  | nil => rfl
  | cons e rest ih =>
    simp only [State.issue, takeAnswer_withHistory, emit_withHistory, ih]
    split
    · split <;> rfl
    · rfl

-- THE INSTRUCTIONS

theorem startRun_withHistory (cols rows : Byte) (s : State) :
    startRun cols rows (s.withHistory trace responses) = (startRun cols rows s).withHistory trace responses := by
  have hoperands : ({ s.withHistory trace responses with columns := cols, rows := rows } : State)
      = State.withHistory trace responses { s with columns := cols, rows := rows } := rfl
  unfold startRun
  dsimp only
  rw [hoperands, issue_withHistory]
  split
  · simp [startBody_eq, State.withHistory]
  · simp [State.raiseIoError, State.respond, State.withHistory]

theorem execStart_withHistory (cols rows : Byte) (s : State) :
    execStart cols rows (s.withHistory trace responses) = mapNext (State.withHistory trace responses) (execStart cols rows s) := by
  have hphase : (s.withHistory trace responses).phase = s.phase := rfl
  unfold execStart
  rw [hphase, startRun_withHistory]
  cases s.phase with
  | uninit => cases goodGeometry cols rows <;> rfl
  | ready => rfl
  | fault => rfl

theorem execReadButtons_withHistory (s : State) :
    execReadButtons (s.withHistory trace responses) = mapNext (State.withHistory trace responses) (execReadButtons s) := by
  refine whenReady_mapNext (s := s) rfl ?_
  rw [pollButtons_withHistory, respond_withHistory]

theorem layout_withHistory (s : State) (text : List Byte) (line : Byte) (col : Int) :
    layout (s.withHistory trace responses) text line col = layout s text line col :=
  layout_congr (s := s) (s' := s.withHistory trace responses) rfl rfl rfl text line col

theorem bytesFor_withHistory (s : State) (i : Instr) : bytesFor (s.withHistory trace responses) i = bytesFor s i := by
  cases i with
  | print text => exact congrArg Prod.fst (layout_withHistory ..)
  | _ => rfl

theorem cursorAfter_withHistory (s : State) (i : Instr) : cursorAfter (s.withHistory trace responses) i = cursorAfter s i := by
  cases i with
  | print text => exact congrArg Prod.snd (layout_withHistory ..)
  | _ => rfl

theorem requestEffect_withHistory (i : Instr) (s : State) :
    requestEffect i (s.withHistory trace responses) = (requestEffect i s).withHistory trace responses := by
  simp only [requestEffect, bytesFor_withHistory, cursorAfter_withHistory]
  simp [State.withHistory]

/-- An instruction from a state with a history in front does what it does without, with the history in front. -/
theorem exec_withHistory (i : Instr) (s : State) :
    exec i (s.withHistory trace responses) = mapNext (State.withHistory trace responses) (exec i s) := by
  cases hr : i.isRequest with
  | false =>
    rw [exec_row_eq hr, exec_row_eq hr]
    exact unlessFault_mapNext rfl (emit_withHistory ..)
  | true =>
    by_cases hn : ∀ c r, i ≠ .start c r
    · by_cases hb : i = .readButtons
      · subst hb
        exact execReadButtons_withHistory ..
      · rw [exec_request_eq hr hn hb, exec_request_eq hr hn hb]
        exact whenReady_mapNext rfl (requestEffect_withHistory ..)
    · push Not at hn
      obtain ⟨cols, rows, rfl⟩ := hn
      exact execStart_withHistory ..

end

/-- Settles O47: a state is itself with an empty history, its history put in front. -/
theorem historyIsNeverRead : Obligations.HistoryIsNeverRead := by
  intro i s
  have hs : s = State.withHistory s.trace s.responses { s with trace := [], responses := [] } := by simp [State.withHistory]
  calc exec i s = exec i (State.withHistory s.trace s.responses { s with trace := [], responses := [] }) := congrArg (exec i) hs
    _ = _ := exec_withHistory s.trace s.responses i _

end Sys2Proof.Machine
end

section
/-! PROOFS. The entry-mode toggles, and PRINT's blindness to autoscroll (10_state.md R29, 42_flag_toggles.md R130, R137 to R140). -/

namespace Sys2Proof.Machine

open Sys2Proof.Safety

/-- A command byte on the bus, bit by bit (R104, R105). -/
theorem command_eq_traceC (v : Byte) : command v = traceC v := by
  simp [command, send, sendOn, hardware, write4, pulse, traceC, traceByte, levelOf, bitLevel, highNibble, lowNibble]

/-- An entry-mode toggle in READY: the new shadow, the whole byte, the response (R130). -/
theorem toggleEntry_of_ready {s : State} (hp : s.phase = .ready) (newShadow : Byte → Byte) :
    whenReady s (toggleEntry newShadow) = .next { s with
      em := newShadow s.em, trace := s.trace ++ traceC (0x04#8 ||| newShadow s.em), responses := s.responses ++ [.done] } := by
  rw [whenReady_of_ready hp, ← command_eq_traceC]
  rfl

theorem entry_toggles_decode (a b : Byte) (rest : List Byte) :
    decodeRequest (0x0C#8 :: a :: b :: rest) = .ok (.leftToRight, rest) ∧ decodeRequest (0x0D#8 :: a :: b :: rest) = .ok (.rightToLeft, rest) ∧
    decodeRequest (0x0E#8 :: a :: b :: rest) = .ok (.autoscrollOn, rest) ∧ decodeRequest (0x0F#8 :: a :: b :: rest) = .ok (.autoscrollOff, rest) := by
  simp [decodeRequest, requestOf, payloadLength]

/-- The toggles of the direction set and clear the bit that is the direction. -/
theorem leftToRight_of_toggle (em : Byte) : leftToRight (em ||| 0x02#8) = true ∧ leftToRight (em &&& 0xFD#8) = false := by
  simp [leftToRight]

/-- Autoscroll is not the direction. -/
theorem leftToRight_xor_autoscroll (em : Byte) : leftToRight (em ^^^ 0x01#8) = leftToRight em := by
  simp [leftToRight]

/-- Of the entry mode PRINT reads the direction alone. -/
theorem layout_of_direction_eq {s : State} {em : Byte} (he : leftToRight em = leftToRight s.em) (text : List Byte) (line : Byte) (col : Int) :
    layout { s with em := em } text line col = layout s text line col := by
  have hreset : resetCol { s with em := em } = resetCol s := by simp only [resetCol, he]
  have hstep : stepCol { s with em := em } = stepCol s := by simp only [stepCol, he]
  induction text generalizing line col with
  | nil => rfl
  | cons ch rest ih =>
    simp only [layout, hreset, hstep, ih]
    rfl

theorem print_ignores_autoscroll (s : State) (text : List Byte) :
    exec (.print text) { s with em := s.em ^^^ 0x01#8 } = mapNext (fun t => { t with em := s.em ^^^ 0x01#8 }) (exec (.print text) s) := by
  rw [exec, exec, execPrint, execPrint]
  refine whenReady_mapNext rfl ?_
  simp only [printLoop_eq, layout_of_direction_eq (leftToRight_xor_autoscroll s.em)]
  rfl

/-- Settles O22: each toggle by the law of entry-mode toggles; PRINT reads the direction alone. -/
theorem entryTogglesComplete : Obligations.EntryTogglesComplete :=
  ⟨entry_toggles_decode,
    fun _ hp => ⟨toggleEntry_of_ready hp _, toggleEntry_of_ready hp _, toggleEntry_of_ready hp _, toggleEntry_of_ready hp _⟩,
    leftToRight_of_toggle, print_ignores_autoscroll⟩

end Sys2Proof.Machine
end

section
/-! PROOFS. The shadows equal what was last sent (10_state.md R28): the bytes a list of sends puts on the bus (20_memory.md R49, R50), and which bytes an operation sends. -/

namespace Sys2Proof.Machine

open Sys2Proof.Safety

-- LATCHED NIBBLES

theorem bitOf_levelOf (b : Bool) : bitOf (levelOf b) = b := by cases b <;> rfl

/-- The lines after a nibble is sent: its bits on D4 to D7, EN Low (R101). -/
def BusLines.driveNibble (b : BusLines) (n : Nibble) : BusLines :=
  { b with d4 := some (levelOf (n.getLsbD 0)), d5 := some (levelOf (n.getLsbD 1)), d6 := some (levelOf (n.getLsbD 2)),
           d7 := some (levelOf (n.getLsbD 3)), en := some .low }

theorem nibble_driveNibble (b : BusLines) (n : Nibble) : (b.driveNibble n).nibble = some n := by
  simp only [BusLines.nibble, BusLines.driveNibble, bitOf_levelOf, Option.some.injEq]
  revert n
  decide

/-- A nibble sent is one latched transfer, with RS and R/W as the lines were (R49). -/
theorem latchedFrom_write4 (b : BusLines) (up : Bool) (n : Nibble) (rest : List Event) :
    latchedFrom b up (write4 n ++ rest) = ⟨b.rs, b.rw, some n⟩ :: latchedFrom (b.driveNibble n) false rest := by
  rw [← nibble_driveNibble b n]
  simp [write4, pulse, latchedFrom, BusLines.drive, BusLines.latch, BusLines.driveNibble, BusLines.nibble]

/-- The lines after a byte is sent (R104). -/
def BusLines.driveByte (b : BusLines) (v : Byte) (isData : Bool) : BusLines :=
  BusLines.driveNibble (BusLines.driveNibble { b with rs := some (levelOf isData), rw := some .low } (highNibble v)) (lowNibble v)

theorem latchedFrom_send (b : BusLines) (up : Bool) (v : Byte) (isData : Bool) (rest : List Event) :
    latchedFrom b up (send v isData ++ rest) =
      ⟨some (levelOf isData), some .low, some (highNibble v)⟩ :: ⟨some (levelOf isData), some .low, some (lowNibble v)⟩
        :: latchedFrom (b.driveByte v isData) false rest := by
  calc latchedFrom b up (send v isData ++ rest)
      = latchedFrom { b with rs := some (levelOf isData), rw := some .low } false (write4 (highNibble v) ++ (write4 (lowNibble v) ++ rest)) := rfl
    _ = _ := by rw [latchedFrom_write4, latchedFrom_write4]; rfl

/-- Events that leave EN alone latch nothing. -/
theorem latchedFrom_of_no_enable (b : BusLines) (up : Bool) {evs : List Event} (h : ∀ l, .write .en l ∉ evs) : latchedFrom b up evs = [] := by
  induction evs generalizing b up with
  | nil => rfl
  | cons e rest ih =>
    have hrest : ∀ l, .write .en l ∉ rest := fun l hmem => h l (List.mem_cons_of_mem _ hmem)
    cases e with
    | write p l =>
      have hp : p ≠ .en := fun hp => h l (by rw [hp]; exact List.mem_cons_self)
      rw [latchedFrom, if_neg hp, ih _ _ hrest]
    | _ => exact ih b up hrest

-- BYTES

theorem highNibble_append_lowNibble (v : Byte) : highNibble v ++ lowNibble v = v := by
  rw [highNibble, lowNibble, BitVec.extractLsb'_append_extractLsb'_eq_extractLsb' (by rfl)]
  simp

/-- A byte as the bus carries it. -/
def OutByte.sent (b : OutByte) : SentByte := ⟨b.isData, b.value⟩

theorem pairOf_halves (v : Byte) (isData : Bool) :
    pairOf ⟨some (levelOf isData), some .low, some (highNibble v)⟩ ⟨some (levelOf isData), some .low, some (lowNibble v)⟩ = some ⟨isData, v⟩ := by
  simp [pairOf, bitOf_levelOf, highNibble_append_lowNibble]

/-- A list of sends, whatever follows it without a pulse, puts exactly its bytes on the bus (R49, R50). -/
theorem sentBytes_sendAll (bs : List OutByte) {trail : List Event} (h : ∀ l, .write .en l ∉ trail) :
    sentBytes (sendAll bs ++ trail) = some (bs.map OutByte.sent) := by
  suffices ∀ b up, pairUp (latchedFrom b up (sendAll bs ++ trail)) = some (bs.map OutByte.sent) from this _ _
  induction bs with
  | nil => intro b up; rw [sendAll, List.nil_append, latchedFrom_of_no_enable b up h]; rfl
  | cons x xs ih =>
    intro b up
    rw [sendAll, List.append_assoc, latchedFrom_send, pairUp, pairOf_halves, ih]
    rfl

-- THE BYTES OF AN OPERATION

theorem trailFor_leaves_enable (i : Instr) (l : Level) : .write .en l ∉ trailFor i := by
  cases i <;> simp [trailFor, backlightWrites]

/-- What a request other than START puts on the bus. -/
theorem exec_sentBytes {i : Instr} {s t : State} (hr : i.isRequest = true) (hn : ∀ c r, i ≠ .start c r) (h : exec i s = .next t) :
    sentBytes (t.trace.drop s.trace.length) = some ((bytesFor s i).map OutByte.sent) := by
  by_cases hb : i = .readButtons
  · subst hb
    obtain ⟨-, u, d, l, r, e, -, -, -, rfl⟩ := execReadButtons_cases h
    rw [List.drop_left]
    exact sentBytes_sendAll [] (by simp)
  · rw [exec_request_eq hr hn hb] at h
    obtain ⟨-, rfl⟩ := whenReady_eq_next.mp h
    rw [requestEffect, List.drop_left]
    exact sentBytes_sendAll _ (trailFor_leaves_enable i)

theorem bytesFor_of_display_toggle (s : State) {i : Instr} (h : i ∈ [Instr.displayOn, .displayOff, .cursorOn, .cursorOff, .blinkOn, .blinkOff]) :
    bytesFor s i = [⟨false, displayControlByte (dcAfter s.dc i)⟩] := by
  simp only [List.mem_cons, List.not_mem_nil, or_false] at h
  obtain rfl | rfl | rfl | rfl | rfl | rfl := h <;> rfl

theorem bytesFor_of_entry_toggle (s : State) {i : Instr} (h : i ∈ [Instr.leftToRight, .rightToLeft, .autoscrollOn, .autoscrollOff]) :
    bytesFor s i = [⟨false, entryModeByte (emAfter s.em i)⟩] := by
  simp only [List.mem_cons, List.not_mem_nil, or_false] at h
  obtain rfl | rfl | rfl | rfl := h <;> rfl

/-- The commands PRINT sends are addresses (R172). -/
theorem layout_commands (s : State) (text : List Byte) (line : Byte) (col : Int) :
    ∀ b ∈ (layout s text line col).1, b.isData = false → ∃ c r, b.value = ddramByte s.rows c r := by
  induction text generalizing line col with
  | nil => simp [layout]
  | cons ch rest ih =>
    unfold layout
    split
    · exact List.forall_mem_cons.mpr ⟨fun _ => ⟨_, _, rfl⟩, ih _ _⟩
    · split
      · exact List.forall_mem_cons.mpr ⟨fun _ => ⟨_, _, rfl⟩, List.forall_mem_cons.mpr ⟨nofun, ih _ _⟩⟩
      · exact List.forall_mem_cons.mpr ⟨nofun, ih _ _⟩

-- COMMAND BYTES AND THE SHADOWS

/-- A command byte that agrees with the shadows: display control and entry mode carry them (R77, R78), and it is no function set (R80). -/
def CarriesShadows (dc em v : Byte) : Prop :=
  (v &&& 0xF8#8 = 0x08#8 → v &&& 0x07#8 = dc) ∧ (v &&& 0xFC#8 = 0x04#8 → v &&& 0x03#8 = em) ∧ v &&& 0xE0#8 ≠ 0x20#8

/-- A byte that is none of the three rows. -/
theorem carriesShadows_of_other {dc em v : Byte} (hdc : v &&& 0xF8#8 ≠ 0x08#8) (hem : v &&& 0xFC#8 ≠ 0x04#8) (hfs : v &&& 0xE0#8 ≠ 0x20#8) :
    CarriesShadows dc em v := ⟨fun h => absurd h hdc, fun h => absurd h hem, hfs⟩

/-- Two words differ where one has a bit the other has not. -/
theorem ne_of_getLsbD {v w : Byte} (k : Nat) (hv : v.getLsbD k = true) (hw : w.getLsbD k = false) : v ≠ w :=
  fun h => by simp [h, hw] at hv

/-- An address byte, by the bit that selects its row (R81, R82). -/
theorem carriesShadows_of_selector {dc em v : Byte} {k : Nat} (hk : k = 6 ∨ k = 7) (hv : v.getLsbD k = true) : CarriesShadows dc em v := by
  obtain rfl | rfl := hk
  · exact carriesShadows_of_other (ne_of_getLsbD 6 (by simp [hv]) rfl) (ne_of_getLsbD 6 (by simp [hv]) rfl) (ne_of_getLsbD 6 (by simp [hv]) rfl)
  · exact carriesShadows_of_other (ne_of_getLsbD 7 (by simp [hv]) rfl) (ne_of_getLsbD 7 (by simp [hv]) rfl) (ne_of_getLsbD 7 (by simp [hv]) rfl)

theorem carriesShadows_ddramByte {dc em : Byte} (rows c r : Byte) : CarriesShadows dc em (ddramByte rows c r) :=
  carriesShadows_of_selector (.inr rfl) (by simp [ddramByte])

theorem carriesShadows_cgramByte {dc em : Byte} (slot : Byte) : CarriesShadows dc em (cgramByte slot) :=
  carriesShadows_of_selector (.inl rfl) (by simp [cgramByte])

theorem carriesShadows_displayControlByte {dc em : Byte} (h : dc.toNat < 2 ^ 3) : CarriesShadows dc em (displayControlByte dc) := by
  have hbits : ∀ n < 2 ^ 3, displayControlByte (BitVec.ofNat 8 n) &&& 0x07#8 = BitVec.ofNat 8 n ∧
      displayControlByte (BitVec.ofNat 8 n) &&& 0xFC#8 ≠ 0x04#8 ∧ displayControlByte (BitVec.ofNat 8 n) &&& 0xE0#8 ≠ 0x20#8 := by decide
  obtain ⟨hdc, hem, hfs⟩ := hbits dc.toNat h
  rw [BitVec.ofNat_toNat, BitVec.setWidth_eq] at hdc hem hfs
  exact ⟨fun _ => hdc, fun h => absurd h hem, hfs⟩

theorem carriesShadows_entryModeByte {dc em : Byte} (h : em.toNat < 2 ^ 2) : CarriesShadows dc em (entryModeByte em) := by
  have hbits : ∀ n < 2 ^ 2, entryModeByte (BitVec.ofNat 8 n) &&& 0xF8#8 ≠ 0x08#8 ∧
      entryModeByte (BitVec.ofNat 8 n) &&& 0x03#8 = BitVec.ofNat 8 n ∧ entryModeByte (BitVec.ofNat 8 n) &&& 0xE0#8 ≠ 0x20#8 := by decide
  obtain ⟨hdc, hem, hfs⟩ := hbits em.toNat h
  rw [BitVec.ofNat_toNat, BitVec.setWidth_eq] at hdc hem hfs
  exact ⟨fun h => absurd h hdc, fun _ => hem, hfs⟩

/-- Every command byte of a request agrees with the shadows it leaves, from shadows of three and of two bits. -/
theorem bytesFor_carriesShadows {s : State} (hdc : s.dc.toNat < 2 ^ 3) (hem : s.em.toNat < 2 ^ 2) (i : Instr) :
    ∀ b ∈ bytesFor s i, b.isData = false → CarriesShadows (dcAfter s.dc i) (emAfter s.em i) b.value := by
  cases i with
  | clear | home | scrollLeft | scrollRight =>
    exact List.forall_mem_singleton.mpr fun _ => carriesShadows_of_other (by decide) (by decide) (by decide)
  | setCursor col row => exact List.forall_mem_singleton.mpr fun _ => carriesShadows_ddramByte s.rows col row
  | displayOn | displayOff | cursorOn | cursorOff | blinkOn | blinkOff =>
    exact List.forall_mem_singleton.mpr fun _ => carriesShadows_displayControlByte (dcAfter_toNat_lt hdc _)
  | leftToRight | rightToLeft | autoscrollOn | autoscrollOff =>
    exact List.forall_mem_singleton.mpr fun _ => carriesShadows_entryModeByte (emAfter_toNat_lt hem _)
  | createChar slot glyph =>
    rw [bytesFor_createChar]
    exact List.forall_mem_cons.mpr ⟨fun _ => carriesShadows_cgramByte slot, List.forall_mem_append.mpr
      ⟨by simp, List.forall_mem_singleton.mpr fun _ => carriesShadows_ddramByte s.rows 0#8 0#8⟩⟩
  | print text =>
    intro b hb hcommand
    obtain ⟨c, r, hvalue⟩ := layout_commands s text s.curLine s.curCol b hb hcommand
    rw [hvalue]
    exact carriesShadows_ddramByte s.rows c r
  | _ => exact List.forall_mem_nil _

/-- Settles O54: the bytes sent are those of `bytesFor`; a command among them that is display control or entry mode is made of the shadow left, and a toggle sends one. -/
theorem shadowsMatchWhatWasSent : Obligations.ShadowsMatchWhatWasSent := by
  intro i s t hp hlegal hr h
  have hn : ∀ c r, i ≠ .start c r := by
    rintro c r rfl
    obtain ⟨huninit, -⟩ := execStart_cases h
    simp [hp] at huninit
  obtain ⟨-, hready⟩ := hlegal
  obtain ⟨-, -, hdcle, hemle, -⟩ := hready hp
  obtain ⟨hdc, hem, -⟩ := exec_registers hn h
  obtain ⟨-, -, -, -, -, -, -, hfs, -⟩ := exec_adds hn h
  refine ⟨(bytesFor s i).map OutByte.sent, exec_sentBytes hr hn h, ?_, ?_, ?_, hfs⟩
  · rw [hdc, hem]
    exact List.forall_mem_map.mpr (bytesFor_carriesShadows (Nat.lt_succ_of_le hdcle) (Nat.lt_succ_of_le hemle) i)
  · intro hne
    rw [hdc] at hne ⊢
    rw [bytesFor_of_display_toggle s (display_toggle_of_ne hne)]
    exact List.mem_singleton_self _
  · intro hne
    rw [hem] at hne ⊢
    rw [bytesFor_of_entry_toggle s (entry_toggle_of_ne hne)]
    exact List.mem_singleton_self _

end Sys2Proof.Machine
end

section
/-! PROOFS. Every event is one the adapter contract allows (20_memory.md R42 to R46, R107), and `pullUp` is START's alone (R43): what the prologue adds and what the
events on configured lines are. -/

namespace Sys2Proof.Machine

open Sys2Proof.Safety

-- EVENTS ON CONFIGURED LINES

/-- What an operation does once the lines are configured: it writes outputs, R/W only Low, reads buttons and waits (R44, R45, R107). -/
def Event.usesLines : Event → Bool
  | .write p l => decide (p ∈ outputLines) && (decide (p ≠ .rw) || decide (l = .low))
  | .read p _ => decide (p ∈ buttonLines)
  | .wait _ => true
  | _ => false

theorem Event.legalEvent_of_usesLines {e : Event} (h : e.usesLines = true) : legalEvent e := by
  cases e with
  | write p l => simpa [Event.usesLines, legalEvent, ← imp_iff_not_or] using h
  | read p l => simpa [Event.usesLines, legalEvent] using h
  | wait => trivial
  | _ => cases h

theorem legal_of_usesLines {evs : List Event} (h : evs.all Event.usesLines = true) : ∀ e ∈ evs, legalEvent e :=
  fun e he => Event.legalEvent_of_usesLines (List.all_eq_true.mp h e he)

theorem not_mem_pull_of_usesLines {evs : List Event} (h : evs.all Event.usesLines = true) (p : Pin) (enabled : Bool) : .pull p enabled ∉ evs := by
  intro hmem
  cases List.all_eq_true.mp h _ hmem

theorem send_usesLines (v : Byte) (isData : Bool) : (send v isData).all Event.usesLines = true := rfl

theorem sendAll_usesLines (bs : List OutByte) : (sendAll bs).all Event.usesLines = true := by
  induction bs with
  | nil => rfl
  | cons b bs ih => rw [sendAll, List.all_append, send_usesLines, ih, Bool.and_self]

theorem Adds.usesLines {evs : List Event} (h : Adds evs) : evs.all Event.usesLines = true := by
  cases h with
  | bytes bs => exact sendAll_usesLines bs
  | bytesThenClearWait bs => rw [List.all_append, sendAll_usesLines]; rfl
  | backlight | buttons | nibble => rfl

theorem startEvents_usesLines (rows : Byte) : (startEvents rows).all Event.usesLines = true := by
  simp only [startEvents, List.all_append, command, clearTransfer, send_usesLines]
  rfl

-- THE PROLOGUE

theorem prologue_legal : ∀ e ∈ prologue hardware, legalEvent e := by
  simp [prologue, outputPins, hardware, buttonPins, legalEvent, outputLines, buttonLines]

theorem prologue_pulls_buttons : ∀ p ∈ buttonLines, .pull p true ∈ prologue hardware := by decide

-- WHAT AN INSTRUCTION ADDS

/-- START adds the calls of its prologue up to a failing one, and after the whole prologue the events of its body (R112 to R120, R122). -/
theorem execStart_added {cols rows : Byte} {s t : State} (h : execStart cols rows s = .next t) :
    ∃ calls body, t.trace = s.trace ++ (calls ++ body) ∧ calls <+: prologue hardware ∧ body.all Event.usesLines = true ∧
      (t.phase = .ready → calls = prologue hardware ∧ body = startEvents rows) := by
  obtain ⟨-, -, calls, answers, draws, ⟨rfl, rfl⟩ | ⟨hprefix, -, rfl⟩⟩ := execStart_cases h
  · rw [startBody_eq]
    exact ⟨_, _, List.append_assoc .., List.prefix_rfl, startEvents_usesLines rows, fun _ => ⟨rfl, rfl⟩⟩
  · exact ⟨calls, [], by simp, hprefix, rfl, by simp⟩

/-- Every instruction adds calls of the prologue, then events on configured lines; the calls only in START, and all of them if it ends READY. -/
theorem exec_added {i : Instr} {s t : State} (h : exec i s = .next t) :
    ∃ calls body, t.trace = s.trace ++ (calls ++ body) ∧ calls <+: prologue hardware ∧ body.all Event.usesLines = true ∧
      (calls ≠ [] → ∃ c r, i = .start c r) ∧ ((∃ c r, i = .start c r) → t.phase = .ready → calls = prologue hardware) := by
  by_cases hn : ∀ c r, i ≠ .start c r
  · obtain ⟨-, -, ⟨body, hadds, htrace⟩, -⟩ := exec_adds hn h
    exact ⟨[], body, htrace, List.nil_prefix, hadds.usesLines, fun hne => absurd rfl hne, fun ⟨c, r, hi⟩ => absurd hi (hn c r)⟩
  · push Not at hn
    obtain ⟨cols, rows, rfl⟩ := hn
    obtain ⟨calls, body, htrace, hcalls, hbody, hready⟩ := execStart_added h
    exact ⟨calls, body, htrace, hcalls, hbody, fun _ => ⟨cols, rows, rfl⟩, fun _ hp => (hready hp).1⟩

theorem exec_adds_legal {i : Instr} {s t : State} (h : exec i s = .next t) :
    ∃ added, t.trace = s.trace ++ added ∧ ∀ e ∈ added, legalEvent e := by
  obtain ⟨calls, body, htrace, hcalls, hbody, -, -⟩ := exec_added h
  exact ⟨calls ++ body, htrace, List.forall_mem_append.mpr ⟨fun e he => prologue_legal e (hcalls.subset he), legal_of_usesLines hbody⟩⟩

-- THE STEP

theorem fetch_keeps_trace {s s' : State} {i : Instr} (h : fetch s = .run i s') : s'.trace = s.trace := by
  obtain ⟨_, -, -, rfl⟩ | ⟨_, -, -, rfl⟩ := fetch_run_cases h <;> rfl

theorem run_keeps_trace_legal {i : Instr} {s s' t : State} (hs : ∀ e ∈ s.trace, legalEvent e) (hf : fetch s = .run i s')
    (h : exec i s' = .next t) : ∀ e ∈ t.trace, legalEvent e := by
  obtain ⟨added, htrace, hadded⟩ := exec_adds_legal h
  rw [htrace, fetch_keeps_trace hf]
  exact List.forall_mem_append.mpr ⟨hs, hadded⟩

/-- Settles O51: an instruction adds legal events alone, a reset adds none, and of an operation cut short an initial part stands. -/
theorem everyStepKeepsTraceLegal : Obligations.EveryStepKeepsTraceLegal := by
  intro s t hs h
  exact step_keeps (P := fun s => ∀ e ∈ s.trace, legalEvent e) (fun _ hs => hs) run_keeps_trace_legal
    (fun k hs hf he e hmem => run_keeps_trace_legal hs hf he e ((cutShort_trace_prefix k he).subset hmem)) (fun _ _ hs => hs) hs h

-- PULL-UPS

/-- The pull-up of a line after one more `Pull` (R48): set if it is the line's own, else as it was. -/
theorem linePull_append_pull (evs : List Event) (p q : Pin) (enabled : Bool) (before : Option Bool) :
    linePull p (evs ++ [.pull q enabled]) before = if q = p then some enabled else linePull p evs before := by
  induction evs generalizing before with
  | nil => rfl
  | cons e rest ih => cases e <;> exact ih _

/-- What an instruction adds holds a `Pull` only in START, where it is on a button line, to enable; a START that ends READY has them all. -/
theorem exec_pulls {i : Instr} {s t : State} (h : exec i s = .next t) :
    ∃ added, t.trace = s.trace ++ added ∧
      (∀ p e, .pull p e ∈ added → (∃ cols rows, i = .start cols rows) ∧ p ∈ buttonLines ∧ e = true) ∧
      ((∃ cols rows, i = .start cols rows) → t.phase = .ready → ∀ p ∈ buttonLines, .pull p true ∈ added) := by
  obtain ⟨calls, body, htrace, hcalls, hbody, honly, hready⟩ := exec_added h
  refine ⟨calls ++ body, htrace, fun p e hmem => ?_, fun hstart hp p hbutton => ?_⟩
  · have hcall : .pull p e ∈ calls := (List.mem_append.mp hmem).resolve_right (not_mem_pull_of_usesLines hbody p e)
    have hlegal : legalEvent (.pull p e) := prologue_legal _ (hcalls.subset hcall)
    exact ⟨honly (List.ne_nil_of_mem hcall), hlegal⟩
  · rw [hready hstart hp]
    exact List.mem_append_left _ (prologue_pulls_buttons p hbutton)

/-- Settles O60: only START's prologue holds a `Pull`, and there one that enables for each button line. -/
theorem pullUpsOnlyInStart : Obligations.PullUpsOnlyInStart :=
  ⟨fun _ _ _ h => exec_pulls h, fun _ _ => rfl, linePull_append_pull⟩

end Sys2Proof.Machine
end

section
/-! PROOFS. The step on a request from the port (60_exceptions.md R198), and an adapter call that never returns (20_memory.md R46). -/

namespace Sys2Proof.Machine

/-- Settles O6: with no unit held the request is fetched, and nothing interrupts it. -/
theorem stepRunsDecodedRequest : Obligations.StepRunsDecodedRequest := fun _ _ _ hi hm hd =>
  step_eq_exec_of_fetch hi (fetch_of_request hm hd) hi

/-- An instruction that completes is left to the interruption scheduled, if any. -/
theorem step_eq_interrupted_of_fetch {s s' t : State} {i : Instr} (hr : s.interruption ≠ some (.resetAfter 0)) (hf : fetch s = .run i s')
    (he : exec i s' = .next t) : step s = interrupted s' t := by
  rw [step_of_no_reset hr, hf]
  simp only [he]

/-- With a call scheduled never to return, an operation that makes it is stuck (R46); one that makes too few calls completes and uses up its own. -/
theorem interrupted_of_hang {before : State} {k : Nat} (h : before.interruption = some (.hangAfter k)) (after : State) :
    interrupted before after =
      if k < ((newEvents before after).filter Event.isCall).length then .fault .adapterHang
      else .next { after with interruption := some (.hangAfter (k - ((newEvents before after).filter Event.isCall).length)) } := by
  unfold interrupted; rw [h]

/-- Settles O12: the calls counted are those of the events the operation added. -/
theorem hangingAdapterCallSticks : Obligations.HangingAdapterCallSticks := by
  intro s t i rest k hhang hm hd he
  have hstep := (step_eq_interrupted_of_fetch (by simp [hhang]) (fetch_of_request hm hd) he).trans
    (interrupted_of_hang (before := { s with requests := rest }) hhang t)
  exact ⟨fun hlt => hstep.trans (if_pos hlt), fun hle => ⟨_, hstep.trans (if_neg (Nat.not_lt.mpr hle)), rfl, rfl⟩⟩

end Sys2Proof.Machine
end

section
/-! PROOFS. What one send and the whole of START latch (20_memory.md R49, R50; 40_bus_timing.md R104; 41_init_start.md R110, R120). -/

namespace Sys2Proof.Machine

open Sys2Proof.Safety

/-- Settles O14: by the latched transfers of a send; its last pulse leaves EN Low. -/
theorem sendLatchesHighThenLowNibble : Obligations.SendLatchesHighThenLowNibble := fun b up isData v rest =>
  ⟨b.driveByte v isData, rfl, latchedFrom_send b up v isData rest⟩

/-- Events that write no line latch nothing and leave the scan where it was. -/
theorem latchedFrom_append_of_no_write (b : BusLines) (up : Bool) {evs : List Event} (h : ∀ p l, .write p l ∉ evs) (rest : List Event) :
    latchedFrom b up (evs ++ rest) = latchedFrom b up rest := by
  induction evs with
  | nil => rfl
  | cons e evs ih =>
    have hrest := ih fun p l hmem => h p l (List.mem_cons_of_mem _ hmem)
    cases e with
    | write p l => exact absurd List.mem_cons_self (h p l)
    | _ => exact hrest

theorem latchedFrom_wait (b : BusLines) (up : Bool) (t : Timer) (rest : List Event) :
    latchedFrom b up (.wait t :: rest) = latchedFrom b up rest := rfl

/-- A transfer with RS and R/W Low. -/
def commandLatch (n : Nibble) : Latched := ⟨some .low, some .low, some n⟩

/-- The nibbles START sends in order: the synchronisation (R114), then each command byte of R116 to R120, high nibble first (R50). -/
def startNibbles (rows : Byte) : List Nibble :=
  [initNibble true, initNibble true, initNibble true, initNibble false] ++
    [functionSetByte (functionShadow hardware rows), displayControlByte startDisplay, clearByte, entryModeByte startEntry,
      ddramByte rows 0#8 0#8].flatMap fun v => [highNibble v, lowNibble v]

/-- START's body latches its nibbles whatever the lines were: it drives RS, EN and R/W Low before the first pulse (R113). -/
theorem latchedFrom_startEvents (b : BusLines) (up : Bool) (rows : Byte) :
    latchedFrom b up (startEvents rows) = (startNibbles rows).map commandLatch := by
  have hlow : ∀ rest, latchedFrom b up (.wait .powerOn :: (controlLow hardware ++ rest)) =
      latchedFrom { b with rs := some .low, en := some .low, rw := some .low } false rest := fun _ => rfl
  have hsynchronise : ∀ fs, synchronise hardware fs = write4 (initNibble true) ++ [.wait .sync1] ++ write4 (initNibble true) ++ [.wait .sync2]
      ++ write4 (initNibble true) ++ [.wait .sync3] ++ write4 (initNibble false) := fun _ => rfl
  rw [← List.append_nil (startEvents rows)]
  simp only [startEvents, hsynchronise, clearTransfer, command, List.append_assoc, List.cons_append, List.nil_append, hlow, latchedFrom_write4,
    latchedFrom_send, latchedFrom_wait]
  rfl

theorem startNibbles_of_goodGeometry {cols rows : Byte} (h : goodGeometry cols rows = true) :
    startNibbles rows = [0x3#4, 0x3#4, 0x3#4, 0x2#4, 0x2#4, (if rows = 1#8 then 0x0#4 else 0x8#4), 0x0#4, 0xC#4, 0x0#4, 0x1#4, 0x0#4, 0x6#4, 0x8#4, 0x0#4] := by
  obtain ⟨-, rfl | rfl | rfl⟩ := (goodGeometry_iff cols rows).mp h <;> decide

/-- Settles O20: the prologue writes no line, and the body latches its nibbles. -/
theorem startLatchesInitSequence : Obligations.StartLatchesInitSequence := by
  intro s t cols rows h hp
  obtain ⟨-, hgood, -⟩ := execStart_cases h
  obtain ⟨calls, body, htrace, -, -, hready⟩ := execStart_added h
  obtain ⟨rfl, rfl⟩ := hready hp
  rw [htrace, List.drop_left, latched, latchedFrom_append_of_no_write _ _ prologue_writes_nothing, latchedFrom_startEvents,
    startNibbles_of_goodGeometry hgood]
  rfl

end Sys2Proof.Machine
end

section
/-! PROOFS. The button levels reach READ_BUTTONS alone (20_memory.md R45, 46_buttons.md R180). -/

namespace Sys2Proof.Machine

open Sys2Proof.Safety

/-- The state with other levels for the lines to read. -/
def State.withLevels (levels : List Level) (s : State) : State := { s with lineLevels := levels }

section
variable (levels : List Level)

theorem takeAnswer_withLevels (s : State) :
    (s.withLevels levels).takeAnswer = (s.takeAnswer.1, s.takeAnswer.2.withLevels levels) := by
  unfold State.takeAnswer
  cases h : s.adapterAnswers <;> simp [State.withLevels, h]

theorem issue_withLevels (calls : List Event) (s : State) :
    State.issue calls (s.withLevels levels) = ((State.issue calls s).1, (State.issue calls s).2.withLevels levels) := by
  have hemit : ∀ evs (s : State), (s.withLevels levels).emit evs = (s.emit evs).withLevels levels := fun _ _ => rfl
  induction calls generalizing s with
  | nil => rfl
  | cons e rest ih =>
    simp only [State.issue, takeAnswer_withLevels, hemit, ih]
    split
    · split <;> rfl
    · rfl

theorem startRun_withLevels (cols rows : Byte) (s : State) :
    startRun cols rows (s.withLevels levels) = (startRun cols rows s).withLevels levels := by
  have hoperands : ({ s.withLevels levels with columns := cols, rows := rows } : State)
      = State.withLevels levels { s with columns := cols, rows := rows } := rfl
  unfold startRun
  dsimp only
  rw [hoperands, issue_withLevels]
  split
  · rw [startBody_eq, startBody_eq]; rfl
  · rfl

theorem execStart_withLevels (cols rows : Byte) (s : State) :
    execStart cols rows (s.withLevels levels) = mapNext (State.withLevels levels) (execStart cols rows s) := by
  have hphase : (s.withLevels levels).phase = s.phase := rfl
  unfold execStart
  rw [hphase, startRun_withLevels]
  cases s.phase with
  | uninit => cases goodGeometry cols rows <;> rfl
  | ready | fault => rfl

/-- PRINT's layout reads the geometry and `em`, never a level. -/
theorem layout_withLevels (s : State) (text : List Byte) (line : Byte) (col : Int) :
    layout (s.withLevels levels) text line col = layout s text line col :=
  layout_congr (s := s) (s' := s.withLevels levels) rfl rfl rfl text line col

theorem bytesFor_withLevels (s : State) (i : Instr) : bytesFor (s.withLevels levels) i = bytesFor s i := by
  cases i with
  | print text => exact congrArg Prod.fst (layout_withLevels ..)
  | _ => rfl

theorem cursorAfter_withLevels (s : State) (i : Instr) : cursorAfter (s.withLevels levels) i = cursorAfter s i := by
  cases i with
  | print text => exact congrArg Prod.snd (layout_withLevels ..)
  | _ => rfl

theorem requestEffect_withLevels (i : Instr) (s : State) :
    requestEffect i (s.withLevels levels) = (requestEffect i s).withLevels levels := by
  simp only [requestEffect, bytesFor_withLevels, cursorAfter_withLevels]
  rfl

theorem exec_withLevels {i : Instr} (hb : i ≠ .readButtons) (s : State) :
    exec i (s.withLevels levels) = mapNext (State.withLevels levels) (exec i s) := by
  cases hr : i.isRequest with
  | false =>
    rw [exec_row_eq hr, exec_row_eq hr]
    exact unlessFault_mapNext rfl rfl
  | true =>
    by_cases hn : ∀ c r, i ≠ .start c r
    · rw [exec_request_eq hr hn hb, exec_request_eq hr hn hb]
      exact whenReady_mapNext rfl (requestEffect_withLevels levels i s)
    · push Not at hn
      obtain ⟨cols, rows, rfl⟩ := hn
      exact execStart_withLevels levels cols rows s

end

/-- Settles O42: no effect but READ_BUTTONS's poll takes a level. -/
theorem levelsReachOnlyReadButtons : Obligations.LevelsReachOnlyReadButtons :=
  fun _ s levels hb => exec_withLevels levels hb s

end Sys2Proof.Machine
end

section
/-! PROOFS. The requests on the port (30_encoding.md R70 to R74, R89): the reserved opcodes, the length of a payload, the fields a format ignores, and the decoder
against the encoder. -/

namespace Sys2Proof.Machine

-- REQUESTS: the opcode alone says whether there is an operation; the decoder cuts the payload off and builds it.

/-- An opcode that is not reserved is one of the twenty of R70. -/
theorem opcode_cases {op : Byte} (h : ¬ 0x14#8 ≤ op) : ∃ k < 20, op = BitVec.ofNat 8 k :=
  ⟨op.toNat, by simpa [BitVec.le_def] using h, by simp⟩

/-- Exactly the opcodes from 0x14 on have no operation (R74). -/
theorem requestOf_eq_none_iff {op a b : Byte} {payload : List Byte} : requestOf op a b payload = none ↔ 0x14#8 ≤ op := by
  refine ⟨fun hnone => ?_, fun hle => ?_⟩
  · by_contra hlt
    obtain ⟨k, hk, rfl⟩ := opcode_cases hlt
    interval_cases k <;> cases hnone
  · have hle : 20 ≤ op.toNat := hle
    unfold requestOf
    split
    case h_21 => rfl
    all_goals omega

/-- What a request carries is well formed when its payload is as long as its header says. -/
theorem wellFormed_of_requestOf {op a b : Byte} {payload : List Byte} {i : Instr} (h : requestOf op a b payload = some i)
    (hlength : payload.length = payloadLength op a) : i.wellFormed = true := by
  unfold requestOf at h
  split at h <;> cases h
  case h_17 hop =>
    have hop : op = 0x10#8 := BitVec.eq_of_toNat_eq hop
    simp [Instr.wellFormed, hlength, payloadLength, hop]
  case h_19 hop =>
    have hop : op = 0x12#8 := BitVec.eq_of_toNat_eq hop
    have hlt := a.isLt
    simp only [Instr.wellFormed, hlength, payloadLength, hop, BitVec.reduceEq, if_false, if_true, decide_eq_true_eq]
    omega
  all_goals rfl

/-- A reserved opcode is refused by name as soon as its header is there. -/
theorem decodeRequest_of_reserved {op : Byte} (h : 0x14#8 ≤ op) (a b : Byte) (rest : List Byte) :
    decodeRequest (op :: a :: b :: rest) = .error (.reservedOpcode op) := by
  rw [decodeRequest, requestOf_eq_none_iff.mpr h]

/-- A whole request is taken with the payload its header asks for, and the bytes after it are left (R71, R89). -/
theorem decodeRequest_of_requestOf {op a b : Byte} {payload : List Byte} {i : Instr} (h : requestOf op a b payload = some i)
    (hlength : payload.length = payloadLength op a) (rest : List Byte) :
    decodeRequest (op :: a :: b :: (payload ++ rest)) = .ok (i, rest) := by
  have hle : ¬ (payload ++ rest).length < payloadLength op a := by rw [List.length_append]; omega
  rw [decodeRequest, ← hlength, List.take_left, List.drop_left, hlength, h]
  exact if_neg hle

/-- Whatever the decoder accepts is a whole request at the front of the port. -/
theorem decodeRequest_cases {bytes rest : List Byte} {i : Instr} (h : decodeRequest bytes = .ok (i, rest)) :
    ∃ op a b payload, bytes = op :: a :: b :: (payload ++ rest) ∧ payload.length = payloadLength op a ∧ requestOf op a b payload = some i := by
  unfold decodeRequest at h
  split at h
  · next op a b tail =>
    split at h
    · cases h
    · next i hi =>
      split at h
      · cases h
      · next hle =>
        cases h
        exact ⟨op, a, b, _, by rw [List.take_append_drop], List.length_take_of_le (Nat.le_of_not_lt hle), hi⟩
  · cases h

/-- A well-formed request is written as a header and the payload it asks for, which stand for it (R70, R72, R89). -/
theorem encode_request {i : Instr} (hw : i.wellFormed = true) (hr : i.isRequest = true) :
    ∃ op a b payload, encode i = .request (op :: a :: b :: payload) ∧ payload.length = payloadLength op a ∧ requestOf op a b payload = some i := by
  cases i <;> simp only [Instr.isRequest, reduceCtorEq] at hr
  case createChar slot glyph => exact ⟨_, _, _, glyph, rfl, by simpa [Instr.wellFormed, payloadLength] using hw, rfl⟩
  case print text =>
    have hle : text.length ≤ 255 := by simpa [Instr.wellFormed] using hw
    have hlength : text.length = (BitVec.ofNat 8 text.length).toNat := by rw [BitVec.toNat_ofNat]; omega
    exact ⟨_, _, _, text, rfl, hlength, rfl⟩
  all_goals exact ⟨_, _, _, [], rfl, rfl, rfl⟩

/-- Settles O2: the header and the payload the encoder writes are those the decoder takes. -/
theorem requestDecodeInvertsEncode : Obligations.RequestDecodeInvertsEncode := by
  intro i hw hr
  obtain ⟨op, a, b, payload, hencode, hlength, hrequest⟩ := encode_request hw hr
  exact ⟨_, hencode, decodeRequest_of_requestOf hrequest hlength⟩

/-- Settles O4: by what the decoder accepts; an opcode with an operation is not reserved. -/
theorem requestLengthIsFunctionOfHeader : Obligations.RequestLengthIsFunctionOfHeader := by
  intro bytes rest i h
  obtain ⟨op, a, b, payload, hbytes, hlength, hrequest⟩ := decodeRequest_cases h
  have hop : op < 0x14#8 := BitVec.not_le.mp fun hle => by simp [requestOf_eq_none_iff.mpr hle] at hrequest
  exact ⟨requestOf_isRequest hrequest, wellFormed_of_requestOf hrequest hlength, op, a, b, payload, hbytes, hop, hlength⟩

/-- The formats N use neither `a` nor `b` (R72). -/
theorem decodeRequest_of_formatN {op : Byte} (h : op ∉ [0x00#8, 0x03#8, 0x10#8, 0x11#8, 0x12#8]) (a b : Byte) (rest : List Byte) :
    decodeRequest (op :: a :: b :: rest) = decodeRequest (op :: 0#8 :: 0#8 :: rest) := by
  by_cases hop : 0x14#8 ≤ op
  · rw [decodeRequest_of_reserved hop, decodeRequest_of_reserved hop]
  · obtain ⟨k, hk, rfl⟩ := opcode_cases hop
    interval_cases k <;> simp at h <;> rfl

/-- The formats A, P8 and PN do not use `b` (R72). -/
theorem decodeRequest_of_one_operand {op : Byte} (h : op ∈ [0x10#8, 0x11#8, 0x12#8]) (a b : Byte) (rest : List Byte) :
    decodeRequest (op :: a :: b :: rest) = decodeRequest (op :: a :: 0#8 :: rest) := by
  simp only [List.mem_cons, List.not_mem_nil, or_false] at h
  obtain rfl | rfl | rfl := h <;> rfl

/-- Settles O5: by the formats of R72. -/
theorem ignoredFieldsChangeNothing : Obligations.IgnoredFieldsChangeNothing := fun _ a b rest =>
  ⟨fun h => decodeRequest_of_formatN h a b rest, fun h => decodeRequest_of_one_operand h a b rest⟩

end Sys2Proof.Machine
end

section
/-! PROOFS. The emitted rows (30_encoding.md R75 to R84): the rows are told apart by their masks, and a row is written back with its pattern over its fields. -/

namespace Sys2Proof.Machine

-- COMMAND ROWS: no byte is of two rows, so the search for a byte's row finds any row that it matches.

theorem commandRows_disjoint : commandRows.Pairwise fun p q => p.pattern &&& q.mask ≠ q.pattern &&& p.mask := by decide

/-- The search finds the row a byte is of. -/
theorem commandRows_find_eq_some {row : CommandRow} {v : Byte} (hmem : row ∈ commandRows) (hv : v &&& row.mask = row.pattern) :
    commandRows.find? (fun r => v &&& r.mask == r.pattern) = some row := by
  obtain ⟨before, after, hsplit⟩ := List.append_of_mem hmem
  have hdisjoint := commandRows_disjoint
  rw [hsplit, List.pairwise_append] at hdisjoint
  obtain ⟨-, -, hbefore⟩ := hdisjoint
  refine List.find?_eq_some_iff_append.mpr ⟨by simpa using hv, before, after, hsplit, fun r hr => ?_⟩
  have hne := hbefore r hr row List.mem_cons_self
  simp only [Bool.not_eq_true', beq_eq_false_iff_ne]
  intro hr
  rw [← hr, ← hv, BitVec.and_assoc, BitVec.and_assoc, BitVec.and_comm row.mask] at hne
  exact hne rfl

/-- A command byte decodes to what its row builds of it. -/
theorem decodeUnit_command_eq_ok_iff {v : Byte} {i : Instr} :
    decodeUnit (.command v) = .ok i ↔ ∃ row ∈ commandRows, v &&& row.mask = row.pattern ∧ row.build v = i := by
  constructor
  · intro h
    cases hfind : commandRows.find? (fun r => v &&& r.mask == r.pattern) with
    | none => simp [decodeUnit, hfind] at h
    | some row =>
      simp only [decodeUnit, hfind, Except.ok.injEq] at h
      exact ⟨row, List.mem_of_find?_eq_some hfind, by simpa using List.find?_some hfind, h⟩
  · rintro ⟨row, hmem, hv, rfl⟩
    rw [decodeUnit, commandRows_find_eq_some hmem hv]

/-- What a row builds of a byte is written with the row's pattern over the byte's own fields. -/
theorem encode_build : ∀ row ∈ commandRows, ∀ v : Byte, encode (row.build v) = .unit (.command (v &&& ~~~row.mask ||| row.pattern)) := by
  have hbits : ∀ {v w : Byte}, (∀ k < 8, v.getLsbD k = w.getLsbD k) → Encoded.unit (.command v) = .unit (.command w) := fun h => by
    rw [BitVec.eq_of_getLsbD_eq h]
  simp only [commandRows, List.forall_mem_cons, List.not_mem_nil, false_imp_iff, implies_true, and_true, encode]
  refine ⟨fun v => by simp, fun v => by simp, ?_, ?_, ?_, ?_, ?_, ?_⟩
  all_goals
    intro v
    refine hbits fun k hk => ?_
    simp only [BitVec.getLsbD_append]
    interval_cases k <;> simp [bit1]

/-- A byte of a row is the row's pattern over its own fields. -/
theorem fields_or_pattern {row : CommandRow} {v : Byte} (hv : v &&& row.mask = row.pattern) : v &&& ~~~row.mask ||| row.pattern = v := by
  rw [← hv, ← BitVec.and_or_distrib_left, BitVec.or_comm, BitVec.or_not_self, BitVec.and_allOnes]

-- EMITTED ROWS

/-- A nibble is LCD.INITNIBBLE's when it is 001n (R84). -/
theorem decodeUnit_nibble_eq_ok {n : Nibble} {i : Instr} (h : decodeUnit (.nibble n) = .ok i) :
    n = 0b001#3 ++ bit1 (n.getLsbD 0) ∧ i = .lcdInitNibble (n.getLsbD 0) := by
  have hbits : ∀ n : Nibble, n &&& 0xE#4 = 0x2#4 → n = 0b001#3 ++ bit1 (n.getLsbD 0) := by decide
  rw [decodeUnit] at h
  split at h
  · next hn => cases h; exact ⟨hbits n hn, rfl⟩
  · cases h

/-- Every unit that decodes is what its row is written as. -/
theorem encode_of_decodeUnit {u : BusUnit} {i : Instr} (h : decodeUnit u = .ok i) : encode i = .unit u := by
  cases u with
  | command v =>
    obtain ⟨row, hmem, hv, rfl⟩ := decodeUnit_command_eq_ok_iff.mp h
    rw [encode_build row hmem, fields_or_pattern hv]
  | data v => cases h; rfl
  | nibble n =>
    obtain ⟨hn, rfl⟩ := decodeUnit_nibble_eq_ok h
    rw [encode, ← hn]

theorem decodeUnit_setCgramAddr (addr : BitVec 6) : decodeUnit (.command (0b01#2 ++ addr)) = .ok (.lcdSetCgramAddr addr) := by
  have hselector : (0b01#2 ++ addr) &&& (0b11#2 ++ 0#6) = 0b01#2 ++ 0#6 := by rw [BitVec.and_append, BitVec.and_zero]; rfl
  exact decodeUnit_command_eq_ok_iff.mpr ⟨⟨0xC0#8, 0x40#8, fun v => .lcdSetCgramAddr (v.setWidth 6)⟩, by simp [commandRows], hselector,
    congrArg Instr.lcdSetCgramAddr BitVec.setWidth_append_eq_right⟩

theorem decodeUnit_setDdramAddr (addr : BitVec 7) : decodeUnit (.command (0b1#1 ++ addr)) = .ok (.lcdSetDdramAddr addr) := by
  have hselector : (0b1#1 ++ addr) &&& (0b1#1 ++ 0#7) = 0b1#1 ++ 0#7 := by rw [BitVec.and_append, BitVec.and_zero]; rfl
  exact decodeUnit_command_eq_ok_iff.mpr ⟨⟨0x80#8, 0x80#8, fun v => .lcdSetDdramAddr (v.setWidth 7)⟩, by simp [commandRows], hselector,
    congrArg Instr.lcdSetDdramAddr BitVec.setWidth_append_eq_right⟩

/-- Every emitted row is written as a unit that decodes to it. -/
theorem decodeUnit_encode {i : Instr} (hr : i.isRequest = false) : ∃ u, encode i = .unit u ∧ decodeUnit u = .ok i := by
  cases i <;> simp only [Instr.isRequest, reduceCtorEq] at hr
  case lcdClearDisplay | lcdReturnHome | lcdData => exact ⟨_, rfl, rfl⟩
  case lcdEntryModeSet i h => exact ⟨_, rfl, by cases i <;> cases h <;> rfl⟩
  case lcdDisplayControl d c b => exact ⟨_, rfl, by cases d <;> cases c <;> cases b <;> rfl⟩
  case lcdCursorShift sc rl => exact ⟨_, rfl, by cases sc <;> cases rl <;> rfl⟩
  case lcdFunctionSet dl n f => exact ⟨_, rfl, by cases dl <;> cases n <;> cases f <;> rfl⟩
  case lcdSetCgramAddr addr => exact ⟨_, rfl, decodeUnit_setCgramAddr addr⟩
  case lcdSetDdramAddr addr => exact ⟨_, rfl, decodeUnit_setDdramAddr addr⟩
  case lcdInitNibble n => exact ⟨_, rfl, by cases n <;> rfl⟩

/-- Settles O3: an emitted row is written as a unit of its own row, and the row a unit is of gives back the unit's bits. -/
theorem emittedDecodeAndEncodeInverse : Obligations.EmittedDecodeAndEncodeInverse :=
  ⟨fun _ hr => decodeUnit_encode hr, fun _ _ h => ⟨decodeUnit_isRequest h, encode_of_decodeUnit h⟩⟩

end Sys2Proof.Machine
end

section
/-! PROOFS. Words of the opcode table (30_encoding.md R70 to R84), and the step on a table word, on a reserved opcode and on an incomplete request (R71, R74, R89;
70_reset_and_hazards.md R211). -/

namespace Sys2Proof.Machine

/-- Settles O1: each word is decoded as it stands. -/
theorem specWordsDecode : Obligations.SpecWordsDecode :=
  ⟨by decide, by decide, by decide, by decide, by decide, rfl, rfl, rfl, rfl⟩

-- TABLE WORDS

/-- A request word stands for its header and a payload of the length it asks for, so nothing is left after it (R89). -/
theorem decodeRequest_requestBytes {w : Nat} {i : Instr} (h : decode (.request (requestBytes w)) = .ok i) :
    decodeRequest (requestBytes w) = .ok (i, []) := by
  cases hd : decodeRequest (requestBytes w) with
  | error e => simp [decode, hd, Except.map] at h
  | ok r =>
    obtain ⟨j, rest⟩ := r
    obtain rfl : j = i := by simpa [decode, hd, Except.map] using h
    obtain ⟨op, a, b, payload, hbytes, hlength, -⟩ := decodeRequest_cases hd
    simp only [requestBytes, headerBytes, List.cons_append, List.nil_append, List.cons.injEq] at hbytes
    obtain ⟨rfl, rfl, rfl, hpayload⟩ := hbytes
    have hrest : rest.length = 0 := by
      have := congrArg List.length hpayload
      rw [List.length_replicate, List.length_append, hlength] at this
      omega
    rw [List.eq_nil_of_length_eq_zero hrest]

/-- A table word of 24 bits is a request, any other a bus unit (log 10). -/
theorem tableWord_cases {nbits w : Nat} {e : Encoded} (h : tableWord nbits w = some e) :
    (nbits = 24 ∧ e = .request (requestBytes w)) ∨ (nbits ≠ 24 ∧ ∃ u, e = .unit u) := by
  unfold tableWord at h
  split at h
  · next hn => cases h; exact .inl ⟨hn, rfl⟩
  · next hn =>
    refine .inr ⟨hn, ?_⟩
    split at h
    · cases h; exact ⟨_, rfl⟩
    · split at h <;> cases h
      exact ⟨_, rfl⟩

theorem decodeTableWord_cases {nbits w : Nat} {i : Instr} (h : decodeTableWord nbits w = some i) :
    ∃ e, tableWord nbits w = some e ∧ decode e = .ok i := by
  unfold decodeTableWord at h
  split at h
  · next e he =>
    cases hd : decode e with
    | error _ => simp [hd, Except.toOption] at h
    | ok j => exact ⟨e, he, by simpa [hd, Except.toOption] using h⟩
  · cases h

/-- Settles O8: the word is placed where the fetch looks first, and no interruption is left. -/
theorem tableWordRunsNext : Obligations.TableWordRunsNext := by
  intro s nbits w i h
  obtain ⟨e, hword, hd⟩ := decodeTableWord_cases h
  rw [State.withFetchWord, hword]
  obtain ⟨hn, rfl⟩ | ⟨hn, u, rfl⟩ := tableWord_cases hword
  · rw [if_pos hn]
    exact step_eq_exec_of_fetch rfl (fetch_of_request rfl (decodeRequest_requestBytes hd)) rfl
  · rw [if_neg hn]
    exact step_eq_exec_of_fetch rfl (fetch_of_unit rfl hd) rfl

-- REFUSED AND WAITING REQUESTS

/-- Settles O9: the decoder names a reserved opcode whatever follows its header, and the block idles on an incomplete request. -/
theorem stepRefusesReservedAndWaits : Obligations.StepRefusesReservedAndWaits := by
  refine ⟨fun s op a b rest hr hm hrequests hop => ?_, fun s hr hm hd => ?_⟩
  · have hd : decodeRequest s.requests = .error (.reservedOpcode op) := hrequests ▸ decodeRequest_of_reserved hop a b rest
    rw [step_of_no_reset hr, fetch_of_reserved hm hd]
  · rw [step_of_no_reset hr, fetch_of_incomplete hm hd]

end Sys2Proof.Machine
end

section
/-! PROOFS. The display-control toggles (42_flag_toggles.md R130 to R136) and SET_BACKLIGHT (30_encoding.md R85, R87; 44_cgram_backlight.md R161). -/

namespace Sys2Proof.Machine

open Sys2Proof.Safety

-- DISPLAY CONTROL

/-- A display-control toggle in READY: the new shadow, the whole byte, the response (R130). -/
theorem toggleDisplay_of_ready {s : State} (hp : s.phase = .ready) (newShadow : Byte → Byte) :
    whenReady s (toggleDisplay newShadow) = .next { s with
      dc := newShadow s.dc, trace := s.trace ++ traceC (0x08#8 ||| newShadow s.dc), responses := s.responses ++ [.done] } := by
  rw [whenReady_of_ready hp, ← command_eq_traceC]
  rfl

theorem display_toggles_decode (a b : Byte) (rest : List Byte) :
    decodeRequest (0x04#8 :: a :: b :: rest) = .ok (.displayOn, rest) ∧ decodeRequest (0x05#8 :: a :: b :: rest) = .ok (.displayOff, rest) ∧
    decodeRequest (0x06#8 :: a :: b :: rest) = .ok (.cursorOn, rest) ∧ decodeRequest (0x07#8 :: a :: b :: rest) = .ok (.cursorOff, rest) ∧
    decodeRequest (0x08#8 :: a :: b :: rest) = .ok (.blinkOn, rest) ∧ decodeRequest (0x09#8 :: a :: b :: rest) = .ok (.blinkOff, rest) :=
  ⟨rfl, rfl, rfl, rfl, rfl, rfl⟩

/-- Settles O21: each toggle by the law of display-control toggles. -/
theorem displayTogglesComplete : Obligations.DisplayTogglesComplete :=
  ⟨display_toggles_decode, fun _ hp => ⟨toggleDisplay_of_ready hp _, toggleDisplay_of_ready hp _, toggleDisplay_of_ready hp _,
    toggleDisplay_of_ready hp _, toggleDisplay_of_ready hp _, toggleDisplay_of_ready hp _⟩⟩

-- BACKLIGHT

/-- A backlight line is Low where the colour bit is 1 (R87). -/
theorem backlightLevel_eq (colorCode : Byte) (i : Nat) : backlightLevel colorCode i = if colorCode.getLsbD i then .low else .high := by
  unfold backlightLevel levelOf
  cases colorCode.getLsbD i <;> rfl

/-- Bits 7:3 of the operand reach no line (R85). -/
theorem backlightWrites_low_bits (colorCode : Byte) : backlightWrites (colorCode &&& 0x07#8) = backlightWrites colorCode := by
  simp [backlightWrites, backlightLevel]

/-- Settles O30: by the level of each line, which looks at one of the low three bits. -/
theorem setBacklightCompletes : Obligations.SetBacklightCompletes := by
  intro s colorCode hp
  refine ⟨?_, ?_⟩
  · rw [exec, execSetBacklight, whenReady_of_ready hp]
    simp only [backlightWrites, backlightLevel_eq]
    rfl
  · rw [exec, exec, execSetBacklight, execSetBacklight, backlightWrites_low_bits]

end Sys2Proof.Machine
end

section
/-! PROOFS. When a request is refused (30_encoding.md R74, 60_exceptions.md R194, R204). -/

namespace Sys2Proof.Machine

open Sys2Proof.Safety

theorem goodGeometry_iff_validGeometry {cols rows : Byte} : goodGeometry cols rows = true ↔ validGeometry cols rows := goodGeometry_iff cols rows

theorem execStart_of_ready {s : State} (h : s.phase = .ready) (cols rows : Byte) : execStart cols rows s = .refused .alreadyStarted := by
  unfold execStart; rw [h]

/-- In UNINIT the geometry decides START (R74, R110). -/
theorem execStart_of_uninit {s : State} (h : s.phase = .uninit) (cols rows : Byte) :
    execStart cols rows s = if goodGeometry cols rows then .next (startRun cols rows s) else .refused .badGeometry := by
  unfold execStart; rw [h]

/-- Settles O44: FAULT refuses everything; START asks for UNINIT and the geometry, every other request for READY. -/
theorem requestsRefusedExactlyWhenSpecSays : Obligations.RequestsRefusedExactlyWhenSpecSays := by
  intro i s hr
  refine ⟨exec_of_fault i, ?_, fun hn => ?_⟩
  · rintro cols rows rfl
    refine ⟨fun hp => execStart_of_ready hp cols rows, fun hp hbad => ?_, fun hp hgood => ⟨startRun cols rows s, ?_⟩⟩
    · exact (execStart_of_uninit hp cols rows).trans (if_neg (mt goodGeometry_iff_validGeometry.mp hbad))
    · exact (execStart_of_uninit hp cols rows).trans (if_pos (goodGeometry_iff_validGeometry.mpr hgood))
  · obtain ⟨effect, heffect⟩ := exec_whenReady s hr hn
    rw [heffect]
    exact ⟨whenReady_of_uninit, fun hp => ⟨effect s, whenReady_of_ready hp⟩⟩

end Sys2Proof.Machine
end

section
/-! PROOFS. The button masks and the mask that READ_BUTTONS returns (30_encoding.md R88, 46_buttons.md R180). -/

namespace Sys2Proof.Machine

open Sys2Proof.Safety

-- MASKS: a button's mask is one bit, at its place carried through a permutation; so each fact about masks is one about places.

theorem buttonOrdinal_of_mem : ∀ p ∈ buttonLines, ∃ k, p.buttonOrdinal = some k := by decide

theorem buttonOrdinal_injective : ∀ p ∈ buttonLines, ∀ q ∈ buttonLines, p.buttonOrdinal = q.buttonOrdinal → p = q := by decide

theorem one_shiftLeft_injective : ∀ j k : Fin 5, 1#5 <<< j.val = 1#5 <<< k.val → j = k := by decide

theorem getLsbD_one_shiftLeft : ∀ j k : Fin 5, (1#5 <<< j.val).getLsbD k.val = decide (j = k) := by decide

theorem Pin.mask_of_ordinal {p : Pin} {k : Fin 5} (h : p.buttonOrdinal = some k) : p.mask = 1#5 <<< (Config.maskMap k).val := by
  rw [Pin.mask, h]

/-- No two buttons have one mask (R88). -/
theorem mask_injective : ∀ p ∈ buttonLines, ∀ q ∈ buttonLines, p.mask = q.mask → p = q := by
  intro p hp q hq h
  obtain ⟨j, hj⟩ := buttonOrdinal_of_mem p hp
  obtain ⟨k, hk⟩ := buttonOrdinal_of_mem q hq
  rw [Pin.mask_of_ordinal hj, Pin.mask_of_ordinal hk] at h
  obtain rfl : j = k := Config.maskMap.injective (one_shiftLeft_injective _ _ h)
  exact buttonOrdinal_injective p hp q hq (hj.trans hk.symm)

/-- Each of the five bits is the mask of the button whose place is carried to it. -/
theorem masks_cover :
    Pin.mask .btnUp ||| Pin.mask .btnDown ||| Pin.mask .btnLeft ||| Pin.mask .btnRight ||| Pin.mask .btnSelect = 0x1F#5 := by
  refine BitVec.eq_of_getLsbD_eq fun bit hbit => ?_
  obtain ⟨k, hk⟩ := Config.maskMap.surjective ⟨bit, hbit⟩
  have hones : ∀ j : Fin 5, (0x1F#5).getLsbD j.val = true := by decide
  have hmask : ∀ (p : Pin) (j : Fin 5), p.buttonOrdinal = some j → p.mask.getLsbD bit = decide (j = k) := fun p j hj => by
    rw [Pin.mask_of_ordinal hj, getLsbD_one_shiftLeft _ ⟨bit, hbit⟩, ← hk]
    exact decide_eq_decide.mpr Config.maskMap.injective.eq_iff
  have hplaces : ∀ k : Fin 5, (decide (0 = k) || decide (1 = k) || decide (2 = k) || decide (3 = k) || decide (4 = k)) = true := by decide
  simp only [BitVec.getLsbD_or, hmask .btnUp 0 rfl, hmask .btnDown 1 rfl, hmask .btnLeft 2 rfl, hmask .btnRight 3 rfl, hmask .btnSelect 4 rfl,
    hones ⟨bit, hbit⟩, hplaces k]

-- THE POLL

/-- The levels a poll read, by line. -/
def buttonLevel (u d l r e : Level) : Pin → Level
  | .btnUp => u
  | .btnDown => d
  | .btnLeft => l
  | .btnRight => r
  | _ => e

/-- Adding the mask of each line that is Low is the OR of the masks of the Low lines. -/
theorem foldl_addMask (level : Pin → Level) (ps : List Pin) (m : BitVec 5) :
    ((ps.map fun p => (p, level p)).foldl (fun m pl => addMask pl.1 pl.2 m) m) =
      ((ps.filter fun p => decide (level p = .low)).map Pin.mask).foldl (· ||| ·) m := by
  induction ps generalizing m with
  | nil => rfl
  | cons p ps ih =>
    rw [List.map_cons, List.foldl_cons, ih, addMask, List.filter_cons]
    by_cases hp : level p = .low
    · simp [hp]
    · simp [hp]

/-- READ_BUTTONS reads each button line at one level and answers the OR of the masks of the Low ones (R180). -/
theorem readButtons_levels {s t : State} (h : exec .readButtons s = .next t) : ∃ level : Pin → Level,
    t.trace = s.trace ++ buttonLines.map (fun p => .read p (level p)) ∧
    t.responses = s.responses ++ [.doneMask (((buttonLines.filter fun p => decide (level p = .low)).map Pin.mask).foldl (· ||| ·) 0#5)] := by
  rw [exec, execReadButtons] at h
  obtain ⟨-, rfl⟩ := whenReady_eq_next.mp h
  obtain ⟨ls, levels, draws, hlen, heq⟩ := pollButtons_spec buttonPins 0#5 s
  match ls, hlen with
  | [u, d, l, r, e], _ =>
    refine ⟨buttonLevel u d l r e, ?_, ?_⟩
    · rw [heq]; rfl
    · rw [← foldl_addMask, heq]; rfl

/-- A line is read at the level it has and at no other. -/
theorem read_mem_iff {level : Pin → Level} {p : Pin} {l : Level} :
    .read p l ∈ buttonLines.map (fun q => Event.read q (level q)) ↔ p ∈ buttonLines ∧ l = level p := by
  simp only [List.mem_map, Event.read.injEq]
  constructor
  · rintro ⟨q, hq, rfl, rfl⟩; exact ⟨hq, rfl⟩
  · rintro ⟨hp, rfl⟩; exact ⟨p, hp, rfl, rfl⟩

/-- Settles O41: the masks are a permutation of the five bits, and the poll ORs those of the lines it reads Low. -/
theorem buttonMasksAreDistinctOneHot : Obligations.ButtonMasksAreDistinctOneHot := by
  refine ⟨fun p hp => ?_, mask_injective, masks_cover, fun s t h => ?_⟩
  · obtain ⟨k, hk⟩ := buttonOrdinal_of_mem p hp
    exact ⟨_, (Config.maskMap k).isLt, Pin.mask_of_ordinal hk⟩
  · obtain ⟨level, htrace, hresponses⟩ := readButtons_levels h
    have hlow : ∀ p ∈ buttonLines, decide (.read p .low ∈ buttonLines.map (fun q => Event.read q (level q))) = decide (level p = .low) :=
      fun p hp => decide_eq_decide.mpr (by simp [read_mem_iff, hp, eq_comm])
    simp only [htrace, List.drop_left]
    refine ⟨fun p hp => ⟨level p, read_mem_iff.mpr ⟨hp, rfl⟩, fun l' hl' => (read_mem_iff.mp hl').2⟩, ?_, fun hhigh => ?_⟩
    · rw [hresponses, List.filter_congr hlow]
    · have hnone : buttonLines.filter (fun p => decide (level p = .low)) = [] := List.filter_eq_nil_iff.mpr fun p hp => by
        simp [← (read_mem_iff.mp (hhigh p hp)).2]
      rw [hresponses, hnone]
      rfl

end Sys2Proof.Machine
end

section
/-! PROOFS. No command byte an operation sends is reserved (30_encoding.md R79, R86). -/

namespace Sys2Proof.Machine

open Sys2Proof.Safety

/-- A command byte of a row that an operation may send: neither a cursor move (R79) nor a function set (R80, R86). -/
def OperationByte (v : Byte) : Prop :=
  ∃ row, decodeUnit (.command v) = .ok row ∧ (∀ rl, row ≠ .lcdCursorShift false rl) ∧ (∀ dl n f, row ≠ .lcdFunctionSet dl n f)

theorem operationByte_ddramByte (rows c r : Byte) : OperationByte (ddramByte rows c r) := by
  have hselector : ddramByte rows c r &&& 0x80#8 = 0x80#8 := by
    refine BitVec.eq_of_getLsbD_eq fun k hk => ?_
    interval_cases k <;> simp [ddramByte]
  exact ⟨_, decodeUnit_command_eq_ok_iff.mpr ⟨⟨0x80#8, 0x80#8, fun v => .lcdSetDdramAddr (v.setWidth 7)⟩, by simp [commandRows], hselector, rfl⟩,
    nofun, nofun⟩

theorem operationByte_cgramByte (slot : Byte) : OperationByte (cgramByte slot) := by
  have hselector : cgramByte slot &&& 0xC0#8 = 0x40#8 := by
    refine BitVec.eq_of_getLsbD_eq fun k hk => ?_
    interval_cases k <;> simp [cgramByte]
  exact ⟨_, decodeUnit_command_eq_ok_iff.mpr ⟨⟨0xC0#8, 0x40#8, fun v => .lcdSetCgramAddr (v.setWidth 6)⟩, by simp [commandRows], hselector, rfl⟩,
    nofun, nofun⟩

/-- A display-control byte made of a shadow of three bits. -/
theorem operationByte_displayControlByte {dc : Byte} (h : dc.toNat < 2 ^ 3) : OperationByte (displayControlByte dc) := by
  have hrow : ∀ n < 2 ^ 3, displayControlByte (BitVec.ofNat 8 n) &&& 0xF8#8 = 0x08#8 := by decide
  have hselector := hrow dc.toNat h
  rw [BitVec.ofNat_toNat, BitVec.setWidth_eq] at hselector
  exact ⟨_, decodeUnit_command_eq_ok_iff.mpr ⟨⟨0xF8#8, 0x08#8, fun v => .lcdDisplayControl (v.getLsbD 2) (v.getLsbD 1) (v.getLsbD 0)⟩,
    by simp [commandRows], hselector, rfl⟩, nofun, nofun⟩

/-- An entry-mode byte made of a shadow of two bits. -/
theorem operationByte_entryModeByte {em : Byte} (h : em.toNat < 2 ^ 2) : OperationByte (entryModeByte em) := by
  have hrow : ∀ n < 2 ^ 2, entryModeByte (BitVec.ofNat 8 n) &&& 0xFC#8 = 0x04#8 := by decide
  have hselector := hrow em.toNat h
  rw [BitVec.ofNat_toNat, BitVec.setWidth_eq] at hselector
  exact ⟨_, decodeUnit_command_eq_ok_iff.mpr ⟨⟨0xFC#8, 0x04#8, fun v => .lcdEntryModeSet (v.getLsbD 1) (v.getLsbD 0)⟩,
    by simp [commandRows], hselector, rfl⟩, nofun, nofun⟩

/-- Every command byte of a request is one an operation may send, from shadows of three and of two bits. -/
theorem bytesFor_operationByte {s : State} (hdc : s.dc.toNat < 2 ^ 3) (hem : s.em.toNat < 2 ^ 2) (i : Instr) :
    ∀ b ∈ bytesFor s i, b.isData = false → OperationByte b.value := by
  cases i with
  | clear | home | scrollLeft | scrollRight => exact List.forall_mem_singleton.mpr fun _ => ⟨_, rfl, nofun, nofun⟩
  | setCursor col row => exact List.forall_mem_singleton.mpr fun _ => operationByte_ddramByte s.rows col row
  | displayOn | displayOff | cursorOn | cursorOff | blinkOn | blinkOff =>
    exact List.forall_mem_singleton.mpr fun _ => operationByte_displayControlByte (dcAfter_toNat_lt hdc _)
  | leftToRight | rightToLeft | autoscrollOn | autoscrollOff =>
    exact List.forall_mem_singleton.mpr fun _ => operationByte_entryModeByte (emAfter_toNat_lt hem _)
  | createChar slot glyph =>
    rw [bytesFor_createChar]
    exact List.forall_mem_cons.mpr ⟨fun _ => operationByte_cgramByte slot, List.forall_mem_append.mpr
      ⟨by simp, List.forall_mem_singleton.mpr fun _ => operationByte_ddramByte s.rows 0#8 0#8⟩⟩
  | print text =>
    intro b hb hcommand
    obtain ⟨c, r, hvalue⟩ := layout_commands s text s.curLine s.curCol b hb hcommand
    rw [hvalue]
    exact operationByte_ddramByte s.rows c r
  | _ => exact List.forall_mem_nil _

/-- Settles O55: what an operation of a READY block sends are the bytes of `bytesFor`, from the shadows of legal registers. -/
theorem reservedCommandBytesNeverSent : Obligations.ReservedCommandBytesNeverSent := by
  intro i s t sent hp hlegal hr h hsent
  have hn : ∀ c r, i ≠ .start c r := by
    rintro c r rfl
    obtain ⟨huninit, -⟩ := execStart_cases h
    simp [hp] at huninit
  obtain ⟨-, hready⟩ := hlegal
  obtain ⟨-, -, hdc, hem, -⟩ := hready hp
  obtain rfl : (bytesFor s i).map OutByte.sent = sent := Option.some.inj ((exec_sentBytes hr hn h).symm.trans hsent)
  exact List.forall_mem_map.mpr (bytesFor_operationByte (Nat.lt_succ_of_le hdc) (Nat.lt_succ_of_le hem) i)

end Sys2Proof.Machine
end

section
/-! PROOFS. The bus primitives are the event lists of V10 (40_bus_timing.md R100 to R105), and every High on EN is followed at once by its wait, Low and the settle wait
(R100, R214). -/

namespace Sys2Proof.Machine

open Sys2Proof.Safety

-- PRIMITIVES

/-- A data byte on the bus, bit by bit (R104, R105). -/
theorem data_eq_traceD (v : Byte) : data v = traceD v := by
  simp [data, send, sendOn, hardware, write4, pulse, traceD, traceByte, levelOf, bitLevel, highNibble, lowNibble]

theorem write4_eq_traceNibble (n : Nibble) : write4 n = traceNibble n := rfl

theorem send_length (v : Byte) (isData : Bool) : (send v isData).length = 20 := rfl

/-- Settles O13: the primitives unfold to the lists of V10; command and data are `send` with RS Low and High. -/
theorem busPrimitivesEmitSpecTraces : Obligations.BusPrimitivesEmitSpecTraces :=
  ⟨pulse_eq_tracePulse, write4_eq_traceNibble, fun v => ⟨command_eq_traceC v, data_eq_traceD v, rfl, rfl⟩, send_length⟩

-- WELL PULSED LISTS

/-- An event other than `W(EN,1)` in front asks for nothing. -/
theorem wellPulsed_cons_iff {e : Event} (h : e ≠ .write .en .high) (rest : List Event) : wellPulsed (e :: rest) ↔ wellPulsed rest := by
  rw [wellPulsed]
  · rintro _ rfl; exact absurd rfl h
  · rintro rfl; exact absurd rfl h

/-- A well pulsed list leaves no pulse open, so what follows is judged by itself. -/
theorem wellPulsed_append_iff {a : List Event} (ha : wellPulsed a) (b : List Event) : wellPulsed (a ++ b) ↔ wellPulsed b := by
  fun_induction wellPulsed a with
  | case1 => exact Iff.rfl
  | case2 rest ih => exact ih ha
  | case3 => exact ha.elim
  | case4 e rest _ hne ih => exact (wellPulsed_cons_iff hne _).trans (ih ha)

/-- Events that never raise EN are well pulsed. -/
theorem wellPulsed_of_no_raise {evs : List Event} (h : .write .en .high ∉ evs) : wellPulsed evs := by
  induction evs with
  | nil => trivial
  | cons e rest ih =>
    obtain ⟨he, hrest⟩ := not_or.mp (mt List.mem_cons.mpr h)
    exact (wellPulsed_cons_iff (Ne.symm he) rest).mpr (ih hrest)

theorem wellPulsed_wait (timer : Timer) : wellPulsed [.wait timer] := trivial

theorem wellPulsed_write4 (n : Nibble) : wellPulsed (write4 n) := trivial

theorem wellPulsed_send (v : Byte) (isData : Bool) : wellPulsed (send v isData) := trivial

theorem wellPulsed_sendAll (bs : List OutByte) : wellPulsed (sendAll bs) := by
  induction bs with
  | nil => trivial
  | cons b bs ih => exact (wellPulsed_append_iff (wellPulsed_send b.value b.isData) _).mpr ih

-- WHAT AN INSTRUCTION ADDS

theorem Adds.wellPulsed {evs : List Event} (h : Adds evs) : Safety.wellPulsed evs := by
  cases h with
  | bytes bs => exact wellPulsed_sendAll bs
  | bytesThenClearWait bs => exact (wellPulsed_append_iff (wellPulsed_sendAll bs) _).mpr (wellPulsed_wait .clear)
  | backlight | buttons => exact wellPulsed_of_no_raise (by simp)
  | nibble n => exact wellPulsed_write4 n

theorem wellPulsed_synchronise (fs : Byte) : wellPulsed (synchronise hardware fs) := trivial

/-- START's body is waits, lines driven Low, and sends (R112 to R120). -/
theorem wellPulsed_startEvents (rows : Byte) : wellPulsed (startEvents rows) := by
  have hlow : wellPulsed (controlLow hardware) := trivial
  simp only [startEvents, clearTransfer, command, List.append_assoc, wellPulsed_append_iff, wellPulsed_wait, hlow, wellPulsed_synchronise,
    wellPulsed_send]

/-- The prologue, cut at a failing call or whole, raises nothing. -/
theorem wellPulsed_of_prefix_prologue {calls : List Event} (h : calls <+: prologue hardware) : wellPulsed calls :=
  wellPulsed_of_no_raise fun hmem => prologue_writes_nothing .en .high (h.subset hmem)

theorem execStart_adds_wellPulsed {cols rows : Byte} {s t : State} (h : execStart cols rows s = .next t) :
    ∃ added, t.trace = s.trace ++ added ∧ wellPulsed added := by
  obtain ⟨-, -, calls, answers, draws, ⟨rfl, rfl⟩ | ⟨hprefix, -, rfl⟩⟩ := execStart_cases h
  · rw [startBody_eq]
    exact ⟨_, List.append_assoc .., (wellPulsed_append_iff (wellPulsed_of_prefix_prologue List.prefix_rfl) _).mpr (wellPulsed_startEvents rows)⟩
  · exact ⟨calls, rfl, wellPulsed_of_prefix_prologue hprefix⟩

/-- Settles O53: an operation is made of sends, which are well pulsed, and of events that do not raise EN. -/
theorem addedEventsAreWellPulsed : Obligations.AddedEventsAreWellPulsed := by
  intro i s t h
  by_cases hn : ∀ c r, i ≠ .start c r
  · obtain ⟨-, -, ⟨added, hadds, htrace⟩, -⟩ := exec_adds hn h
    exact ⟨added, htrace, hadds.wellPulsed⟩
  · push Not at hn
    obtain ⟨cols, rows, rfl⟩ := hn
    exact execStart_adds_wellPulsed h

end Sys2Proof.Machine
end

section
/-! PROOFS. A reset in the middle of an operation (40_bus_timing.md R108, 70_reset_and_hazards.md R210, R216). -/

namespace Sys2Proof.Machine

/-- With a reset scheduled, an operation that has more events is cut short; one that has not completes and uses up its own. -/
theorem interrupted_of_resetAfter {before : State} {k : Nat} (h : before.interruption = some (.resetAfter k)) (after : State) :
    interrupted before after =
      if k < (newEvents before after).length then .next (cutShort k before after)
      else .next { after with interruption := some (.resetAfter (k - (newEvents before after).length)) } := by
  unfold interrupted; rw [h]

/-- Settles O11: the events counted are those the operation added, and the first k of them stand. -/
theorem resetInMidOperationCutsTrace : Obligations.ResetInMidOperationCutsTrace := by
  intro s t i rest k hreset hpos hm hd he
  have hnow : s.interruption ≠ some (.resetAfter 0) := by simp [hreset, hpos.ne']
  have hstep := (step_eq_interrupted_of_fetch hnow (fetch_of_request hm hd) he).trans
    (interrupted_of_resetAfter (before := { s with requests := rest }) hreset t)
  obtain ⟨evs, htrace⟩ := exec_appends he
  have hnew : newEvents { s with requests := rest } t = evs := by rw [newEvents, htrace, List.drop_left]
  have hlength : t.trace.length = s.trace.length + evs.length := by rw [htrace, List.length_append]
  rw [hnew] at hstep
  refine ⟨fun hlt => ?_, fun hle => ?_⟩
  · obtain ⟨answers, levels, draws, hcut⟩ := cutShort_spec k { s with requests := rest } t
    rw [if_pos (by omega), hcut, hnew] at hstep
    refine ⟨_, hstep, rfl, rfl, ?_, rfl, rfl, rfl⟩
    rw [htrace, List.take_length_add_append]
  · rw [if_neg (by omega)] at hstep
    rw [hstep, hlength, Nat.add_sub_add_left]

end Sys2Proof.Machine
end

section
/-! PROOFS. The least waits of every operation (40_bus_timing.md R106, 41_init_start.md R120, 70_reset_and_hazards.md R220). -/

namespace Sys2Proof.Machine

open Sys2Proof.Safety

-- WAITS OF EVENT LISTS

theorem leastDuration_append (a b : List Event) : leastDuration (a ++ b) = leastDuration a + leastDuration b := by
  induction a with
  | nil => simp [leastDuration]
  | cons e rest ih => cases e <;> simp [leastDuration, ih, Nat.add_assoc]

theorem leastDuration_wait (timer : Timer) : leastDuration [.wait timer] = timer.nanoseconds := by simp only [leastDuration, Nat.add_zero]

theorem leastDuration_write4 (n : Nibble) : leastDuration (write4 n) = Timer.enHigh.nanoseconds + Timer.settle.nanoseconds := by
  simp [write4, pulse, leastDuration]

/-- A byte is two nibbles (R106). -/
theorem leastDuration_send (v : Byte) (isData : Bool) : leastDuration (send v isData) = byteWait := by
  have hsend : send v isData = [.write .rs (levelOf isData), .write .rw .low] ++ (write4 (highNibble v) ++ write4 (lowNibble v)) := rfl
  rw [hsend, leastDuration_append, leastDuration_append, leastDuration_write4, leastDuration_write4, byteWait, Nat.two_mul]
  simp only [leastDuration, Nat.zero_add]

theorem leastDuration_sendAll (bs : List OutByte) : leastDuration (sendAll bs) = bs.length * byteWait := by
  induction bs with
  | nil => simp [sendAll, leastDuration]
  | cons b bs ih => rw [sendAll, leastDuration_append, leastDuration_send, ih, List.length_cons, Nat.succ_mul, Nat.add_comm]

theorem byteWait_min : 74900 ≤ byteWait := by
  rw [byteWait, nanoseconds_enHigh, nanoseconds_settle]
  omega

-- START

theorem leastDuration_prologue : leastDuration (prologue hardware) = 0 := rfl

/-- The four nibbles of the synchronisation wait as two bytes do (R114). -/
theorem leastDuration_synchronise (fs : Byte) :
    leastDuration (synchronise hardware fs) =
      Timer.sync1.nanoseconds + Timer.sync2.nanoseconds + Timer.sync3.nanoseconds + 2 * byteWait := by
  have hsynchronise : synchronise hardware fs = write4 (initNibble true) ++ [.wait .sync1] ++ write4 (initNibble true) ++ [.wait .sync2]
      ++ write4 (initNibble true) ++ [.wait .sync3] ++ write4 (initNibble false) := rfl
  simp only [hsynchronise, leastDuration_append, leastDuration_write4, leastDuration_wait, byteWait]
  omega

theorem leastDuration_startEvents (rows : Byte) :
    leastDuration (startEvents rows) = Timer.powerOn.nanoseconds + Timer.sync1.nanoseconds + Timer.sync2.nanoseconds + Timer.sync3.nanoseconds
      + Timer.clear.nanoseconds + 7 * byteWait := by
  have hlow : leastDuration (controlLow hardware) = 0 := rfl
  simp only [startEvents, clearTransfer, command, leastDuration_append, leastDuration_wait, leastDuration_send, leastDuration_synchronise, hlow]
  omega

theorem start_leastDuration {cols rows : Byte} {s t : State} (h : exec (.start cols rows) s = .next t) (hp : t.phase = .ready) :
    leastDuration (t.trace.drop s.trace.length) =
      Timer.powerOn.nanoseconds + Timer.sync1.nanoseconds + Timer.sync2.nanoseconds + Timer.sync3.nanoseconds + Timer.clear.nanoseconds
        + 7 * byteWait := by
  obtain ⟨calls, body, htrace, -, -, hready⟩ := execStart_added h
  obtain ⟨rfl, rfl⟩ := hready hp
  rw [htrace, List.drop_left, leastDuration_append, leastDuration_prologue, Nat.zero_add, leastDuration_startEvents]

/-- 50 ms, 4.1 ms twice, 0.1 ms, 2 ms and seven bytes (R120). -/
theorem startWait_min :
    60824300 ≤ Timer.powerOn.nanoseconds + Timer.sync1.nanoseconds + Timer.sync2.nanoseconds + Timer.sync3.nanoseconds + Timer.clear.nanoseconds
      + 7 * byteWait := by
  rw [nanoseconds_powerOn, nanoseconds_sync1, nanoseconds_sync2, nanoseconds_sync3, nanoseconds_clear]
  have hbyte := byteWait_min
  omega

-- THE OTHER REQUESTS

/-- CLEAR and HOME send one byte and then wait `T_CLEAR` (R152, R153). -/
theorem one_byte_then_clear_wait (s : State) {i : Instr} (h : i = .clear ∨ i = .home) :
    (∀ c r, i ≠ .start c r) ∧ (bytesFor s i).length = 1 ∧ trailFor i = [.wait .clear] := by
  obtain rfl | rfl := h <;> exact ⟨nofun, rfl, rfl⟩

/-- READ_BUTTONS and SET_BACKLIGHT send no byte; they read or write lines with no wait (R161, R180). -/
theorem no_wait_of_lines_only (s : State) {i : Instr} (h : i = .readButtons ∨ ∃ c, i = .setBacklight c) :
    (∀ c r, i ≠ .start c r) ∧ bytesFor s i = [] ∧ leastDuration (trailFor i) = 0 := by
  obtain rfl | ⟨c, rfl⟩ := h <;> exact ⟨nofun, rfl, rfl⟩

/-- A request other than START waits for its bytes and for what it emits beside them. -/
theorem exec_leastDuration {i : Instr} {s t : State} (hr : i.isRequest = true) (hn : ∀ c r, i ≠ .start c r) (h : exec i s = .next t) :
    leastDuration (t.trace.drop s.trace.length) = (bytesFor s i).length * byteWait + leastDuration (trailFor i) := by
  by_cases hb : i = .readButtons
  · subst hb
    obtain ⟨-, u, d, l, r, e, -, -, -, rfl⟩ := execReadButtons_cases h
    obtain ⟨-, hbytes, hwait⟩ := no_wait_of_lines_only s (.inl rfl)
    rw [List.drop_left, hbytes, hwait]
    simp only [leastDuration, List.length_nil, Nat.zero_mul]
  · rw [exec_request_eq hr hn hb] at h
    obtain ⟨-, rfl⟩ := whenReady_eq_next.mp h
    rw [requestEffect, List.drop_left, leastDuration_append, leastDuration_sendAll]

/-- The toggles, SET_CURSOR and the scrolls send one byte and nothing else. -/
theorem one_byte_of_short {i : Instr} (s : State)
    (h : i ∈ [Instr.displayOn, .displayOff, .cursorOn, .cursorOff, .blinkOn, .blinkOff, .scrollLeft, .scrollRight, .leftToRight, .rightToLeft,
      .autoscrollOn, .autoscrollOff] ∨ ∃ c r, i = .setCursor c r) :
    (∀ c r, i ≠ .start c r) ∧ (bytesFor s i).length = 1 ∧ trailFor i = [] := by
  obtain h | ⟨c, r, rfl⟩ := h
  · simp only [List.mem_cons, List.not_mem_nil, or_false] at h
    obtain rfl | rfl | rfl | rfl | rfl | rfl | rfl | rfl | rfl | rfl | rfl | rfl := h <;> exact ⟨nofun, rfl, rfl⟩
  · exact ⟨nofun, rfl, rfl⟩

/-- CREATE_CHAR sends its address, eight rows and the address it returns to. -/
theorem bytesFor_createChar_length (s : State) (slot : Byte) {glyph : List Byte} (h : (Instr.createChar slot glyph).wellFormed = true) :
    (bytesFor s (.createChar slot glyph)).length = 10 := by
  have hrows : glyph.length = 8 := by simpa [Instr.wellFormed] using h
  simp [bytesFor_createChar, hrows]

/-- Settles O57: an operation waits `byteWait` a byte and its own long waits; the minimums follow from those of the durations. -/
theorem operationsKeepLeastWaits : Obligations.OperationsKeepLeastWaits := by
  intro i s t hr hw hp h
  have hmin := byteWait_min
  refine ⟨?_, fun hi => ?_, ?_, fun hi => ?_, ?_, fun hi => ?_⟩
  · rintro ⟨cols, rows, rfl⟩
    rw [start_leastDuration h hp]
    exact ⟨rfl, startWait_min⟩
  · obtain ⟨hn, hone, htrail⟩ := one_byte_then_clear_wait s hi
    rw [exec_leastDuration hr hn h, hone, htrail, leastDuration_wait, nanoseconds_clear]
    omega
  · rintro ⟨slot, glyph, rfl⟩
    rw [exec_leastDuration hr nofun h, bytesFor_createChar_length s slot hw]
    simp only [trailFor, leastDuration]
    omega
  · obtain ⟨hn, hone, htrail⟩ := one_byte_of_short s hi
    rw [exec_leastDuration hr hn h, hone, htrail]
    simp only [leastDuration]
    omega
  · rintro ⟨text, rfl⟩
    refine ⟨_, exec_sentBytes hr nofun h, ?_⟩
    rw [exec_leastDuration hr nofun h, List.length_map]
    rfl
  · obtain ⟨hn, hbytes, hwait⟩ := no_wait_of_lines_only s hi
    rw [exec_leastDuration hr hn h, hbytes, hwait, List.length_nil, Nat.zero_mul]

end Sys2Proof.Machine
end

section
/-! PROOFS. START from UNINIT: the calls of its prologue answered Ok or not (41_init_start.md R111, R122; 60_exceptions.md R195), the events of V20 and V21, and the walk
of the initialization FSM (R121). -/

namespace Sys2Proof.Machine

open Sys2Proof.Safety

-- THE CALLS

/-- Calls whose failable ones are all answered Ok are issued in full, and the calls after them follow (R111). -/
theorem issue_append_of_ok {calls rest : List Event} {s : State} {later : List AdapterAnswer}
    (h : s.adapterAnswers = List.replicate (calls.filter Event.canFail).length .ok ++ later) :
    State.issue (calls ++ rest) s = State.issue rest { s with trace := s.trace ++ calls, adapterAnswers := later } := by
  induction calls generalizing s with
  | nil =>
    have hs : s.adapterAnswers = later := h
    simp [← hs]
  | cons e calls ih =>
    rw [List.cons_append, State.issue]
    by_cases he : e.canFail = true
    · rw [List.filter_cons_of_pos he, List.length_cons, List.replicate_succ, List.cons_append] at h
      rw [if_pos he, takeAnswer_cons h]
      exact (ih (s := State.emit [e] { s with adapterAnswers := _ }) rfl).trans (by simp [State.emit])
    · rw [List.filter_cons_of_neg he] at h
      rw [if_neg he, ih (s := s.emit [e]) h]
      simp [State.emit]

/-- A call answered IoError is the last one issued (R122, R194). -/
theorem issue_cons_of_ioError {failing : Event} (hf : failing.canFail = true) (rest : List Event) {s : State} {later : List AdapterAnswer}
    (h : s.adapterAnswers = .ioError :: later) :
    State.issue (failing :: rest) s = (false, { s with trace := s.trace ++ [failing], adapterAnswers := later }) := by
  rw [State.issue, if_pos hf, takeAnswer_cons h]
  rfl

/-- The calls up to the (k+1)-th that can fail. -/
theorem exists_split_at_failable {calls : List Event} {k : Nat} (hk : k < (calls.filter Event.canFail).length) :
    ∃ before failing rest, calls = before ++ failing :: rest ∧ failing.canFail = true ∧ (before.filter Event.canFail).length = k := by
  have hsplit := (List.take_append_drop k (calls.filter Event.canFail)).symm
  rw [List.drop_eq_getElem_cons hk] at hsplit
  obtain ⟨before, after, hcalls, hbefore, hfrom⟩ := List.filter_eq_append_iff.mp hsplit
  obtain ⟨quiet, rest, hafter, hquiet, hfails, -⟩ := List.filter_eq_cons_iff.mp hfrom
  refine ⟨before ++ quiet, _, rest, by rw [List.append_assoc, ← hafter, hcalls], hfails, ?_⟩
  rw [List.filter_append, List.filter_eq_nil_iff.mpr hquiet, List.append_nil, hbefore, List.length_take, min_eq_left hk.le]

theorem prologue_eq_tracePrologue : prologue hardware = tracePrologue := rfl

theorem prologue_failable_length : ((prologue hardware).filter Event.canFail).length = 16 := rfl

-- START FROM UNINIT

/-- START whose preconditions are met runs (R110). -/
theorem exec_start_of_uninit {s : State} {cols rows : Byte} (hp : s.phase = .uninit) (hg : validGeometry cols rows) :
    exec (.start cols rows) s = .next (startRun cols rows s) :=
  (execStart_of_uninit hp cols rows).trans (if_pos (goodGeometry_iff_validGeometry.mpr hg))

/-- After sixteen answers Ok, START's body runs on the whole prologue (R111, R112). -/
theorem startRun_of_ok {s : State} {later : List AdapterAnswer} (cols rows : Byte) (h : s.adapterAnswers = List.replicate 16 .ok ++ later) :
    startRun cols rows s = startBody { s with
      columns := cols, rows := rows, trace := s.trace ++ prologue hardware, adapterAnswers := later } := by
  have hissue := issue_append_of_ok (calls := prologue hardware) (rest := []) (s := { s with columns := cols, rows := rows }) h
  rw [List.append_nil] at hissue
  unfold startRun
  rw [hissue]
  rfl

/-- START whose (k+1)-th call that can fail is answered IoError ends with that call and the fault entry (R122, R195). -/
theorem startRun_of_ioError {s : State} {before rest : List Event} {failing : Event} {later : List AdapterAnswer} (cols rows : Byte)
    (hcalls : prologue hardware = before ++ failing :: rest) (hf : failing.canFail = true)
    (h : s.adapterAnswers = List.replicate (before.filter Event.canFail).length .ok ++ .ioError :: later) :
    startRun cols rows s = State.raiseIoError { s with
      columns := cols, rows := rows, trace := s.trace ++ (before ++ [failing]), adapterAnswers := later } := by
  have hissue := issue_append_of_ok (rest := failing :: rest) (s := { s with columns := cols, rows := rows }) h
  rw [issue_cons_of_ioError hf rest rfl] at hissue
  unfold startRun
  rw [hcalls, hissue, ← List.append_assoc]
  rfl

-- THE EVENTS

/-- The address START sends is that of column 0 of row 0 (R120). -/
theorem ddramByte_origin {cols rows : Byte} (hg : validGeometry cols rows) : ddramByte rows 0#8 0#8 = 0x80#8 := by
  obtain ⟨-, rfl | rfl | rfl⟩ := hg <;> rfl

theorem functionShadow_of_validGeometry {cols rows : Byte} (hg : validGeometry cols rows) :
    functionShadow hardware rows = if rows = 1#8 then 0x00#8 else 0x08#8 := by
  obtain ⟨-, rfl | rfl | rfl⟩ := hg <;> rfl

theorem functionSetByte_of_validGeometry {cols rows : Byte} (hg : validGeometry cols rows) :
    functionSetByte (functionShadow hardware rows) = if rows = 1#8 then 0x20#8 else 0x28#8 := by
  obtain ⟨-, rfl | rfl | rfl⟩ := hg <;> rfl

theorem clampRow_zero {cols rows : Byte} (hg : validGeometry cols rows) : clampRow rows 0#8 = 0#8 := by
  obtain ⟨-, rfl | rfl | rfl⟩ := hg <;> rfl

/-- START's events are those of V20, and of V21 for one row. -/
theorem prologue_append_startEvents {cols rows : Byte} (hg : validGeometry cols rows) :
    prologue hardware ++ startEvents rows = traceStart (if rows = 1#8 then 0x20#8 else 0x28#8) := by
  rw [startEvents, functionSetByte_of_validGeometry hg, ddramByte_origin hg, clearTransfer]
  simp only [command_eq_traceC, traceStart, List.append_assoc]
  rfl

theorem traceStart_length (functionSet : Byte) : (traceStart functionSet).length = 165 := by
  have hnibble : ∀ n, (traceNibble n).length = 9 := fun _ => rfl
  have hbyte : ∀ v, (traceC v).length = 20 := fun _ => rfl
  simp only [traceStart, List.length_append, hnibble, hbyte]
  rfl

/-- The walk of the twelve states emits START's events one state after the other (R121). -/
theorem initWalk_config {cols rows : Byte} (hg : validGeometry cols rows) :
    initWalk hardware rows 12 .config = prologue hardware ++ startEvents rows := by
  have hsynchronise : ∀ fs, synchronise hardware fs = InitState.sync1.emits hardware rows ++ InitState.sync2.emits hardware rows
      ++ InitState.sync3.emits hardware rows ++ InitState.set4.emits hardware rows := fun _ => rfl
  rw [startEvents, ddramByte_origin hg, hsynchronise]
  simp only [initWalk, InitState.next, List.append_assoc, List.append_nil]
  rfl

-- THE STATEMENTS

/-- Settles O16: sixteen answers Ok carry START through the prologue, and its body leaves the registers of R36. -/
theorem startCompletes : Obligations.StartCompletes := by
  intro s cols rows later hp hg hanswers
  refine ⟨?_, traceStart_length _⟩
  rw [exec_start_of_uninit hp hg, startRun_of_ok cols rows hanswers, startBody_eq, ← prologue_append_startEvents hg,
    ← functionShadow_of_validGeometry hg, clampRow_zero hg, List.append_assoc]
  rfl

/-- Settles O17: the prologue is split at its (k+1)-th call that can fail, the last one issued. -/
theorem startFaultIsPrecise : Obligations.StartFaultIsPrecise := by
  intro s cols rows k later hp hg hk hanswers
  obtain ⟨before, failing, rest, hcalls, hf, rfl⟩ := exists_split_at_failable (prologue_failable_length.symm ▸ hk)
  refine ⟨before, failing, ⟨rest, ?_⟩, hf, rfl, ?_⟩
  · rw [← prologue_eq_tracePrologue, hcalls, List.append_assoc]
    rfl
  · rw [exec_start_of_uninit hp hg, startRun_of_ioError cols rows hcalls hf hanswers]
    rfl

/-- Settles O18: START runs, and by what it can do it ends in its body or in the fault entry. -/
theorem startEndsReadyOrFault : Obligations.StartEndsReadyOrFault := by
  intro s cols rows hp hg
  have hexec := exec_start_of_uninit hp hg
  refine ⟨_, hexec, ?_⟩
  obtain ⟨-, -, calls, answers, draws, ⟨-, hbody⟩ | ⟨-, -, hfault⟩⟩ := execStart_cases hexec
  · rw [hbody, startBody_eq]
    exact ⟨rfl, rfl, .inl ⟨rfl, rfl, rfl⟩⟩
  · rw [hfault]
    exact ⟨rfl, rfl, .inr ⟨rfl, rfl, rfl⟩⟩

/-- Settles O19: a START that ends READY added the whole prologue and its body's events, which are the walk's. -/
theorem startFollowsInitFsm : Obligations.StartFollowsInitFsm := by
  intro s t cols rows h hready
  obtain ⟨-, hgood, -⟩ := execStart_cases h
  obtain ⟨calls, body, htrace, -, -, hall⟩ := execStart_added h
  obtain ⟨rfl, rfl⟩ := hall hready
  rw [htrace, initWalk_config (goodGeometry_iff_validGeometry.mp hgood)]

end Sys2Proof.Machine
end

section
/-! PROOFS. Toggles one after the other (42_flag_toggles.md R130, R137, R138): what the flags of the shadow are after a set and a clear of the same flag. -/

namespace Sys2Proof.Machine

open Sys2Proof.Safety

-- FLAGS

/-- Setting a flag is idempotent (R130). -/
theorem setFlag_setFlag (v flag : Byte) : setFlag (setFlag v flag) flag = setFlag v flag := by
  rw [setFlag, setFlag, BitVec.or_assoc, BitVec.or_self]

/-- A set is lost to the clear after it. -/
theorem clearFlag_setFlag (v flag : Byte) : clearFlag (setFlag v flag) flag = clearFlag v flag := by
  simp only [clearFlag, setFlag]
  ext i hi
  cases hf : flag[i] <;> simp [hf]

/-- A clear is lost to the set after it. -/
theorem setFlag_clearFlag (v flag : Byte) : setFlag (clearFlag v flag) flag = setFlag v flag := by
  simp only [clearFlag, setFlag]
  ext i hi
  cases hf : flag[i] <;> simp [hf]

/-- A clear is without effect exactly when the bit is 0 already. -/
theorem clearFlag_twoPow_eq_self_iff (v : Byte) (k : Nat) : clearFlag v (BitVec.twoPow 8 k) = v ↔ v.getLsbD k = false := by
  rw [clearFlag]
  constructor
  · intro h
    rw [← h]
    simp
  · intro h
    ext i hi
    by_cases hik : i = k
    · subst hik
      simp [← BitVec.getLsbD_eq_getElem, h]
    · simp [hik]

-- DISPLAY CONTROL

/-- In READY each pair of display-control toggles sets and clears one flag of `dc`, the one at its bit (R131 to R136). -/
theorem exec_of_display_pair {on off : Instr} {bit : Nat}
    (h : (on, off, bit) ∈ [(Instr.displayOn, Instr.displayOff, 2), (.cursorOn, .cursorOff, 1), (.blinkOn, .blinkOff, 0)]) :
    (∀ s : State, s.phase = .ready → exec on s = .next (toggleDisplay (setFlag · (BitVec.twoPow 8 bit)) s)) ∧
    (∀ s : State, s.phase = .ready → exec off s = .next (toggleDisplay (clearFlag · (BitVec.twoPow 8 bit)) s)) := by
  simp only [List.mem_cons, Prod.mk.injEq, List.not_mem_nil, or_false] at h
  obtain ⟨rfl, rfl, rfl⟩ | ⟨rfl, rfl, rfl⟩ | ⟨rfl, rfl, rfl⟩ := h <;> exact ⟨fun _ => whenReady_of_ready, fun _ => whenReady_of_ready⟩

@[simp] theorem toggleDisplay_dc (f : Byte → Byte) (s : State) : (toggleDisplay f s).dc = f s.dc := rfl

/-- A toggle sends the whole command byte (R130). -/
theorem toggleDisplay_trace (f : Byte → Byte) (s : State) : (toggleDisplay f s).trace = s.trace ++ traceC (0x08#8 ||| f s.dc) := by
  rw [← command_eq_traceC]
  rfl

/-- Two commands on the bus are two bytes (R49, R50). -/
theorem sentBytes_two_commands (v w : Byte) : sentBytes (traceC v ++ traceC w) = some [⟨false, v⟩, ⟨false, w⟩] := by
  have h := sentBytes_sendAll [⟨false, v⟩, ⟨false, w⟩] (trail := []) (by simp)
  simp only [sendAll, List.append_nil] at h
  rw [← command_eq_traceC, ← command_eq_traceC]
  exact h

/-- Settles O23: a set and the clear of its flag act on `dc` as the clear alone, and each toggle sends its command. -/
theorem toggleTwiceLaw : Obligations.ToggleTwiceLaw := by
  intro s on off bit hp hpair
  obtain ⟨hon, hoff⟩ := exec_of_display_pair hpair
  refine ⟨_, _, _, hon _ hp, hoff _ hp, hon _ hp, ?_, ?_, ?_⟩
  · rw [toggleDisplay_dc, toggleDisplay_dc, clearFlag_setFlag, clearFlag_twoPow_eq_self_iff]
  · rw [toggleDisplay_dc, toggleDisplay_dc, setFlag_setFlag]
  · simp only [toggleDisplay_trace, toggleDisplay_dc, List.append_assoc, List.drop_left, sentBytes_two_commands]

-- ENTRY MODE

@[simp] theorem toggleEntry_em (f : Byte → Byte) (s : State) : (toggleEntry f s).em = f s.em := rfl

/-- The toggles of the direction write its bit of `em` (R29, R137, R138). -/
theorem direction_of_toggle (em : Byte) : (setFlag em flagID).getLsbD 1 = true ∧ (clearFlag em flagID).getLsbD 1 = false := leftToRight_of_toggle em

/-- The toggles of the direction leave autoscroll alone (R137, R138). -/
theorem autoscroll_of_direction_toggle (em : Byte) :
    (setFlag em flagID).getLsbD 0 = em.getLsbD 0 ∧ (clearFlag em flagID).getLsbD 0 = em.getLsbD 0 := by
  simp [setFlag, clearFlag, flagID]

/-- Settles O24: each call's write of the flag overrides the one before it, and autoscroll is another bit. -/
theorem directionRoundTrip : Obligations.DirectionRoundTrip := by
  intro s hp
  have hltr : ∀ {s : State}, s.phase = .ready → exec .leftToRight s = .next (toggleEntry (setFlag · flagID) s) := whenReady_of_ready
  have hrtl : ∀ {s : State}, s.phase = .ready → exec .rightToLeft s = .next (toggleEntry (clearFlag · flagID) s) := whenReady_of_ready
  refine ⟨_, _, _, hltr hp, hrtl hp, hltr hp, ?_⟩
  simp only [toggleEntry_em, clearFlag_setFlag, setFlag_clearFlag, direction_of_toggle, autoscroll_of_direction_toggle, and_self]

end Sys2Proof.Machine
end

section
/-! PROOFS. Cursor addressing, clear, home and the display scrolls (43_cursor_clear_scroll.md R150 to R155). -/

namespace Sys2Proof.Machine

open Sys2Proof.Safety

-- THE CLAMP

theorem clampRow_eq_clampedRow (rows r : Byte) : clampRow rows r = clampedRow rows r := by
  simp only [clampRow, clampedRow, ← BitVec.not_lt, ite_not]

/-- The clamp leaves the last row where it is, whatever `rows` is. -/
theorem clampRow_last (rows : Byte) : clampRow rows (rows - 1#8) = rows - 1#8 := ite_self _

/-- SET_CURSOR reads its row through the clamp alone. -/
theorem exec_setCursor_congr {s : State} {r r' : Byte} (h : clampRow s.rows r = clampRow s.rows r') (col : Byte) :
    exec (.setCursor col r) s = exec (.setCursor col r') s := by
  simp only [exec, execSetCursor, whenReady, State.setCursor, ddramByte, h]

-- THE ADDRESS

/-- The row table of R60 and the spec's list of it agree on the rows it has. -/
theorem rowOffset_eq_rowBase {r : Byte} (h : r.toNat < 4) : rowOffset r = rowBase r.toNat := by
  rw [rowOffset]
  interval_cases r.toNat <;> rfl

/-- A clamped row is in the row table, for at most four rows (R23). -/
theorem clampedRow_toNat_lt {cols rows : Byte} (hg : validGeometry cols rows) (r : Byte) : (clampedRow rows r).toNat < 4 := by
  obtain ⟨-, hrows⟩ := hg
  rw [clampedRow]
  split
  · next hr => obtain rfl | rfl | rfl := hrows <;> bv_omega
  · obtain rfl | rfl | rfl := hrows <;> decide

theorem ddramByte_eq_addressByte {cols rows : Byte} (hg : validGeometry cols rows) (c r : Byte) : ddramByte rows c r = addressByte rows c r := by
  rw [ddramByte, addressByte, clampRow_eq_clampedRow, rowOffset_eq_rowBase (clampedRow_toNat_lt hg r)]

/-- The row table as numbers. -/
theorem rowBase_toNat (r : Nat) : (rowBase r).toNat = [0x00, 0x40, 0x14, 0x54].getD r 0 := (List.getD_map _ _ BitVec.toNat).symm

/-- The selector bit is above the address, so it is lost mod 128 (R82, R150). -/
theorem addressByte_toNat_mod (rows c r : Byte) :
    (addressByte rows c r).toNat % 128 = ((rowBase (clampedRow rows r).toNat).toNat + c.toNat) % 128 := by
  have hselector : ∀ address : Byte, (0x80#8 ||| address).toNat % 128 = address.toNat % 128 := fun address => by
    rw [BitVec.toNat_or, show 128 = 2 ^ 7 from rfl, Nat.or_mod_two_pow]
    exact Nat.zero_or _
  rw [addressByte, hselector, BitVec.toNat_add]
  exact Nat.mod_mod_of_dvd _ (by decide)

-- OPERATIONS IN READY

/-- An operation of one command in READY: its byte, the response, no register. -/
theorem command_done_of_ready {s : State} (hp : s.phase = .ready) (v : Byte) :
    whenReady s (fun s => (s.command v).respond .done) = .next { s with trace := s.trace ++ traceC v, responses := s.responses ++ [.done] } := by
  rw [whenReady_of_ready hp, ← command_eq_traceC]
  rfl

/-- A command with the long wait and the cursor at the origin, in READY (R152, R153). -/
theorem command_wait_home_of_ready {s : State} (hp : s.phase = .ready) (v : Byte) :
    whenReady s (fun s => (s.emit (command v ++ [.wait .clear])).syncCursor.respond .done) = .next { s with
      curLine := 0#8, curCol := 0, trace := s.trace ++ (traceC v ++ [.wait .clear]), responses := s.responses ++ [.done] } := by
  rw [whenReady_of_ready hp, ← command_eq_traceC]
  rfl

-- THE STATEMENTS

/-- Settles O26: the row is read through the clamp alone, which takes a row past the end and the last row to the same; the byte sent is the address under bit 7. -/
theorem rowClampLaw : Obligations.RowClampLaw := by
  intro s t col row _ hg
  refine ⟨fun hrow => exec_setCursor_congr ((if_pos hrow).trans (clampRow_last s.rows).symm) col, fun hrow h => ?_⟩
  have hsent : sentBytes (t.trace.drop s.trace.length) = some [⟨false, ddramByte s.rows col row⟩] := exec_sentBytes rfl (by simp) h
  have hinside : clampedRow s.rows row = row := if_pos hrow
  rw [ddramByte_eq_addressByte hg] at hsent
  refine ⟨_, hsent, by simp [addressByte], ?_⟩
  rw [addressByte_toNat_mod, hinside, rowBase_toNat]

/-- Settles O25: in a legal geometry the model's clamp and row table are the spec's. -/
theorem setCursorCompletes : Obligations.SetCursorCompletes := by
  intro s col row hp hg
  rw [exec, execSetCursor, whenReady_of_ready hp, ← ddramByte_eq_addressByte hg, ← command_eq_traceC, ← clampRow_eq_clampedRow]
  rfl

/-- Settles O27: both are a command with the long wait and the cursor at the origin. -/
theorem clearAndHomeComplete : Obligations.ClearAndHomeComplete := fun _ hp =>
  ⟨command_wait_home_of_ready hp clearByte, command_wait_home_of_ready hp homeByte⟩

/-- Settles O28: both are an operation of one command. -/
theorem scrollsComplete : Obligations.ScrollsComplete := fun _ hp =>
  ⟨command_done_of_ready hp (cursorShiftByte true false), command_done_of_ready hp (cursorShiftByte true true)⟩

end Sys2Proof.Machine
end

section
/-! PROOFS. Custom characters, and PRINT of one (44_cgram_backlight.md R160, 45_print.md R170). -/

namespace Sys2Proof.Machine

open Sys2Proof.Safety

-- THE BYTES OF CREATE_CHAR

theorem glyphTransfer_eq_traceD (glyph : List Byte) : glyphTransfer glyph = glyph.flatMap traceD := by
  rw [glyphTransfer, funext data_eq_traceD]

/-- The slot's offset stays below the selector bit, so setting the bit adds it; the offset is eight rows for each slot (R61, R81). -/
theorem cgramByte_eq_add (slot : Byte) : cgramByte slot = 0x40#8 + BitVec.ofNat 8 (slot.toNat % 8 * 8) := by
  have hoffset : (slot &&& 0x07#8) <<< 3 = BitVec.ofNat 8 (slot.toNat % 8 * 8) := by
    apply BitVec.eq_of_toNat_eq
    rw [BitVec.toNat_shiftLeft, BitVec.toNat_and, BitVec.toNat_ofNat, Nat.shiftLeft_eq]
    exact congrArg (· * 8 % 256) (Nat.and_two_pow_sub_one_eq_mod slot.toNat 3)
  have hdisjoint : 0x40#8 &&& ((slot &&& 0x07#8) <<< 3) = 0#8 := by
    ext i hi
    interval_cases i <;> simp
  rw [cgramByte, ← BitVec.add_eq_or_of_and_eq_zero _ _ hdisjoint, hoffset]

theorem flatMap_traceD_length (bytes : List Byte) : (bytes.flatMap traceD).length = 20 * bytes.length := by
  have hbyte : (fun v => (traceD v).length) = fun _ => 20 := rfl
  rw [List.length_flatMap, hbyte, List.map_const', List.sum_replicate, smul_eq_mul, Nat.mul_comm]

-- PRINT OF ONE BYTE

/-- A printable byte with the column in the row is sent as it is, and the column steps once (R170, R172). -/
theorem exec_print_in_row {s : State} {ch : Byte} (hp : s.phase = .ready) (hch : ch ≠ newline) (hlo : 0 ≤ s.curCol)
    (hhi : s.curCol ≤ (s.columns.toNat : Int) - 1) :
    exec (.print [ch]) s = .next { s with
      curCol := s.curCol + columnStep s, trace := s.trace ++ traceD ch, responses := s.responses ++ [.done] } := by
  have hin : ¬ pastRow s s.curCol = true := by
    simp only [pastRow, Bool.or_eq_true, decide_eq_true_eq]
    omega
  rw [exec, execPrint, whenReady_of_ready hp, printLoop, if_neg hch, if_neg hin, ← data_eq_traceD]
  rfl

-- THE STATEMENTS

/-- Settles O29: the model's bytes are the spec's, and in a legal geometry the cursor goes to the origin. -/
theorem createCharCompletes : Obligations.CreateCharCompletes := by
  intro s slot glyph hp hg hlen
  constructor
  · rw [exec, execCreateChar, whenReady_of_ready hp, cgramByte_eq_add, glyphTransfer_eq_traceD, State.setCursor]
    simp only [State.command, State.emit, State.moveCursor, State.respond, ddramByte_origin hg, clampRow_zero hg, command_eq_traceC, List.append_assoc]
    rfl
  · have hcommand : ∀ v, (traceC v).length = 20 := fun _ => rfl
    rw [List.length_append, List.length_append, hcommand, hcommand, flatMap_traceD_length, hlen]

/-- Settles O39: CREATE_CHAR leaves the column at 0, in every row; a slot's code is below the newline, so PRINT sends it. -/
theorem createCharThenPrint : Obligations.CreateCharThenPrint := by
  intro s slot glyph hp hg hlen hslot
  obtain ⟨hcreate, -⟩ := createCharCompletes s slot glyph hp hg hlen
  have hcode : slot ≠ newline := by rintro rfl; exact absurd hslot (by decide)
  have hcolumns : (0 : Int) ≤ s.columns.toNat - 1 := by have hne := hg.1; bv_omega
  exact ⟨_, _, hcreate, exec_print_in_row hp hcode le_rfl hcolumns, rfl, rfl, zero_add _⟩

end Sys2Proof.Machine
end

section
/-! PROOFS. PRINT (45_print.md R170 to R174): what its layout does with one byte of text, with a text that stays in the row and with any text. -/

namespace Sys2Proof.Machine

open Sys2Proof.Safety

-- THE TERMS OF THE LAYOUT

/-- The line advances by one and saturates at 255 (R170, R173). -/
theorem advanceLine_eq_nextLine (line : Byte) : advanceLine line = nextLine line := by
  rw [advanceLine, nextLine]
  split <;> bv_omega

theorem le_advanceLine (line : Byte) : line ≤ advanceLine line := by
  rw [advanceLine]
  split <;> bv_omega

theorem resetCol_eq_resetColumn (s : State) : resetCol s = resetColumn s := rfl

theorem stepCol_eq_columnStep (s : State) : stepCol s = columnStep s := rfl

/-- The wrap test looks past either end of the row (R172). -/
theorem pastRow_iff {s : State} {col : Int} : pastRow s col = true ↔ col < 0 ∨ (s.columns.toNat : Int) - 1 < col := by
  rw [pastRow, Bool.or_eq_true, decide_eq_true_eq, decide_eq_true_eq, or_comm]

-- THE LAYOUT OF ONE BYTE

theorem layout_newline (s : State) (line : Byte) (col : Int) :
    layout s [newline] line col = ([⟨false, ddramByte s.rows (resetCol s) (advanceLine line)⟩], advanceLine line, ((resetCol s).toNat : Int)) := by
  simp [layout]

theorem layout_past_row {s : State} {ch : Byte} {col : Int} (hch : ch ≠ newline) (hpast : pastRow s col = true) (line : Byte) :
    layout s [ch] line col =
      ([⟨false, ddramByte s.rows (resetCol s) (advanceLine line)⟩, ⟨true, ch⟩], advanceLine line, (resetCol s).toNat + stepCol s) := by
  simp [layout, hch, hpast]

/-- Left-to-right, a text that fits in the rest of the row is sent alone, and the column moves by its length. -/
theorem layout_within_row {s : State} {text : List Byte} {col : Int} (hdir : s.em.getLsbD 1 = true) (hno : newline ∉ text) (hlo : 0 ≤ col)
    (hfit : col + text.length ≤ s.columns.toNat) (line : Byte) :
    layout s text line col = (text.map (⟨true, ·⟩), line, col + text.length) := by
  induction text generalizing col with
  | nil => simp [layout]
  | cons ch rest ih =>
    obtain ⟨hch, hrest⟩ := not_or.mp (mt List.mem_cons.mpr hno)
    rw [List.length_cons, Nat.cast_succ] at hfit
    have hin : ¬ pastRow s col = true := by rw [pastRow_iff]; omega
    have hstep : stepCol s = 1 := if_pos hdir
    rw [layout, if_neg (Ne.symm hch), if_neg hin, hstep, ih hrest (by omega) (by omega), List.length_cons, Nat.cast_succ, add_assoc, add_comm 1]
    rfl

-- THE LAYOUT OF ANY TEXT

/-- The data bytes are the text without its newlines, unchanged and in order (R170). -/
theorem layout_data (s : State) (text : List Byte) (line : Byte) (col : Int) :
    ((layout s text line col).1.filter (·.isData)).map (·.value) = text.filter (fun ch => decide (ch ≠ newline)) := by
  induction text generalizing line col with
  | nil => rfl
  | cons ch rest ih =>
    rw [layout]
    split
    · next hch => simpa [hch] using ih _ _
    · next hch => split <;> simpa [hch] using ih _ _

theorem le_layout_line (s : State) (text : List Byte) (line : Byte) (col : Int) : line ≤ (layout s text line col).2.1 := by
  induction text generalizing line col with
  | nil => exact BitVec.le_refl line
  | cons ch rest ih =>
    rw [layout]
    split
    · exact BitVec.le_trans (le_advanceLine line) (ih _ _)
    · split
      · exact BitVec.le_trans (le_advanceLine line) (ih _ _)
      · exact ih _ _

/-- Every address is at the reset column, of the line PRINT begins at or of a later one (R171, R172). -/
theorem layout_addresses (s : State) (text : List Byte) (line : Byte) (col : Int) :
    ∀ b ∈ (layout s text line col).1, b.isData = false → ∃ r, line ≤ r ∧ b.value = ddramByte s.rows (resetCol s) r := by
  induction text generalizing line col with
  | nil => exact List.forall_mem_nil _
  | cons ch rest ih =>
    have hlater : ∀ col, ∀ b ∈ (layout s rest (advanceLine line) col).1, b.isData = false →
        ∃ r, line ≤ r ∧ b.value = ddramByte s.rows (resetCol s) r := by
      intro col b hb hcommand
      obtain ⟨r, hr, hvalue⟩ := ih (advanceLine line) col b hb hcommand
      exact ⟨r, BitVec.le_trans (le_advanceLine line) hr, hvalue⟩
    rw [layout]
    split
    · exact List.forall_mem_cons.mpr ⟨fun _ => ⟨_, le_advanceLine line, rfl⟩, hlater _⟩
    · split
      · exact List.forall_mem_cons.mpr ⟨fun _ => ⟨_, le_advanceLine line, rfl⟩, List.forall_mem_cons.mpr ⟨nofun, hlater _⟩⟩
      · exact List.forall_mem_cons.mpr ⟨nofun, ih _ _⟩

/-- From the last row on, the clamp gives the last row (R150, R173). -/
theorem clampRow_of_last_le {rows r : Byte} (h : rows - 1#8 ≤ r) : clampRow rows r = rows - 1#8 := by
  rw [clampRow]
  split
  · rfl
  · next hlt => bv_omega

theorem ddramByte_of_last_le {rows r : Byte} (h : rows - 1#8 ≤ r) (c : Byte) : ddramByte rows c r = ddramByte rows c (rows - 1#8) := by
  rw [ddramByte, ddramByte, clampRow_of_last_le h, clampRow_last]

-- PRINT

/-- PRINT completes exactly in READY: it sends the bytes of its layout and leaves the layout's cursor (R170, R173). -/
theorem exec_print_eq_next {s t : State} {text : List Byte} :
    exec (.print text) s = .next t ↔ s.phase = .ready ∧ t = { s with
      curLine := (layout s text s.curLine s.curCol).2.1, curCol := (layout s text s.curLine s.curCol).2.2,
      trace := s.trace ++ sendAll (layout s text s.curLine s.curCol).1, responses := s.responses ++ [.done] } := by
  rw [exec, execPrint, whenReady_eq_next, printLoop_eq]
  rfl

/-- PRINT in READY, from what its layout comes to. -/
theorem exec_print_of_layout {s : State} {text : List Byte} {bytes : List OutByte} {line : Byte} {col : Int} (hp : s.phase = .ready)
    (h : layout s text s.curLine s.curCol = (bytes, line, col)) :
    exec (.print text) s = .next { s with
      curLine := line, curCol := col, trace := s.trace ++ sendAll bytes, responses := s.responses ++ [.done] } :=
  exec_print_eq_next.mpr ⟨hp, by rw [h]⟩

/-- What PRINT puts on the bus is the bytes of its layout. -/
theorem exec_print_sentBytes {s t : State} {text : List Byte} (h : exec (.print text) s = .next t) :
    sentBytes (t.trace.drop s.trace.length) = some ((layout s text s.curLine s.curCol).1.map OutByte.sent) :=
  exec_sentBytes (i := .print text) rfl nofun h

theorem sendAll_length (bs : List OutByte) : (sendAll bs).length = 20 * bs.length := by
  induction bs with
  | nil => rfl
  | cons b bs ih => rw [sendAll, List.length_append, send_length, ih, List.length_cons, Nat.mul_succ, Nat.add_comm]

/-- In a legal geometry the address of the next line is the spec's (R150, R171). -/
theorem sendAll_cons_address {cols rows : Byte} (hg : validGeometry cols rows) (c line : Byte) (bs : List OutByte) :
    sendAll (⟨false, ddramByte rows c (advanceLine line)⟩ :: bs) = traceC (addressByte rows c (nextLine line)) ++ sendAll bs := by
  rw [← command_eq_traceC, ← ddramByte_eq_addressByte hg, ← advanceLine_eq_nextLine]
  rfl

theorem sendAll_cons_data (ch : Byte) (bs : List OutByte) : sendAll (⟨true, ch⟩ :: bs) = traceD ch ++ sendAll bs := by
  rw [← data_eq_traceD]
  rfl

-- THE STATEMENTS

/-- Settles O35: the layout of a text is that of its pieces, and the state PRINT leaves lays text out as the one before it does. -/
theorem printOfPiecesEqualsPrint : Obligations.PrintOfPiecesEqualsPrint := by
  intro s first second hp
  have hboth := exec_print_of_layout hp (layout_append s first second s.curLine s.curCol)
  rw [sendAll_append, ← List.append_assoc] at hboth
  refine ⟨_, _, exec_print_of_layout hp rfl, ?_, hboth⟩
  exact exec_print_of_layout hp (layout_congr (s := s) (by rfl) (by rfl) (by rfl) second _ _)

/-- Settles O36: a text that fits in the rest of the row leaves the column at its end, and the column's end is past the row. -/
theorem printWrapsAtTheColumnsthByte : Obligations.PrintWrapsAtTheColumnsthByte := by
  intro s text ch hp hg hdir hlo hfill hno hch
  have hrow := layout_within_row hdir hno hlo hfill.le s.curLine
  have hpast : pastRow s s.columns.toNat = true := pastRow_iff.mpr (.inr (by omega))
  have hreset : resetCol s = 0#8 := if_pos hdir
  have hstep : stepCol s = 1 := if_pos hdir
  rw [hfill] at hrow
  have hwrap := layout_append s text [ch] s.curLine s.curCol
  rw [hrow, layout_past_row hch hpast, hreset, hstep, ddramByte_eq_addressByte hg, advanceLine_eq_nextLine] at hwrap
  have hfirst := exec_print_of_layout hp hrow
  have hboth := exec_print_of_layout hp hwrap
  refine ⟨_, _, hfirst, hboth, ?_, rfl, rfl, ?_, rfl, rfl⟩
  · rw [exec_print_sentBytes hfirst, hrow, List.map_map]
    rfl
  · rw [exec_print_sentBytes hboth, hwrap, List.map_append, List.map_map]
    rfl

/-- Settles O37: what PRINT sends is the bytes of its layout, whose data bytes are the text without its newlines. -/
theorem printSendsTextUnchanged : Obligations.PrintSendsTextUnchanged := by
  intro s t text h
  refine ⟨_, exec_print_sentBytes h, ?_, ?_⟩
  · rw [List.filter_map, List.map_map]
    exact layout_data s text s.curLine s.curCol
  · obtain ⟨-, rfl⟩ := exec_print_eq_next.mp h
    rw [List.drop_left, sendAll_length, List.length_map]

/-- Settles O38: every address is of a line not before the first, so the clamp gives the last row. -/
theorem printPinsToLastRow : Obligations.PrintPinsToLastRow := by
  intro s t text hg hlast h
  refine ⟨?_, _, exec_print_sentBytes h, List.forall_mem_map.mpr fun b hb hcommand => ?_⟩
  · obtain ⟨-, rfl⟩ := exec_print_eq_next.mp h
    exact le_layout_line s text s.curLine s.curCol
  · obtain ⟨r, hr, hvalue⟩ := layout_addresses s text s.curLine s.curCol b hb hcommand
    rw [← ddramByte_eq_addressByte hg, ← resetCol_eq_resetColumn, ← ddramByte_of_last_le (BitVec.le_trans hlast hr)]
    exact hvalue

/-- Settles O31: PRINT's effect is that of its layout. -/
theorem printCompletes : Obligations.PrintCompletes := fun _ _ hp => ⟨_, _, _, exec_print_of_layout hp rfl⟩

/-- Settles O32: the layout of no text is empty; a byte in the row is sent where the cursor is. -/
theorem printWritesInRow : Obligations.PrintWritesInRow := by
  refine fun s ch hp => ⟨?_, exec_print_in_row hp⟩
  rw [exec_print_of_layout hp rfl, layout, sendAll, List.append_nil]

/-- Settles O33: a newline is laid out as an address alone. -/
theorem printNewline : Obligations.PrintNewline := by
  intro s hp hg
  have h := exec_print_of_layout hp (layout_newline s s.curLine s.curCol)
  rwa [sendAll_cons_address hg, sendAll, List.append_nil, advanceLine_eq_nextLine, resetCol_eq_resetColumn] at h

/-- Settles O34: past either end of the row a byte is laid out as an address and the byte. -/
theorem printWrapsLazily : Obligations.PrintWrapsLazily := by
  intro s ch hp hg hch hpast
  have h := exec_print_of_layout hp (layout_past_row hch (pastRow_iff.mpr hpast) s.curLine)
  rwa [sendAll_cons_address hg, sendAll_cons_data, sendAll, List.append_nil, advanceLine_eq_nextLine, resetCol_eq_resetColumn, stepCol_eq_columnStep] at h

end Sys2Proof.Machine
end

section
/-! PROOFS. READ_BUTTONS (46_buttons.md R180, R181): its five reads and the mask it answers, as the OR of five terms. -/

namespace Sys2Proof.Machine

-- THE POLL

/-- What a line read at a level adds to the mask (R180). -/
def lowMask (p : Pin) (l : Level) : BitVec 5 := if l = .low then p.mask else 0#5

theorem addMask_eq_or (p : Pin) (l : Level) (m : BitVec 5) : addMask p l m = m ||| lowMask p l := by
  unfold addMask lowMask
  split
  · rfl
  · exact BitVec.or_zero.symm

/-- A line whose level State lists reads that level, and no value is drawn. -/
theorem pinRead_of_cons {s : State} {l : Level} {rest : List Level} (p : Pin) (h : s.lineLevels = l :: rest) :
    s.pinRead p = (l, { s with trace := s.trace ++ [.read p l], lineLevels := rest }) := by
  rw [State.pinRead, takeLevel_cons h]
  rfl

/-- A poll of lines whose levels State lists reads those levels, in order. -/
theorem pollButtons_of_levels {ps : List Pin} {ls later : List Level} (hlen : ls.length = ps.length) {s : State} (h : s.lineLevels = ls ++ later)
    (m : BitVec 5) :
    pollButtons ps m s = ((ps.zip ls).foldl (fun m pl => addMask pl.1 pl.2 m) m,
      { s with trace := s.trace ++ (ps.zip ls).map (fun pl => .read pl.1 pl.2), lineLevels := later }) := by
  induction ps generalizing ls m s with
  | nil =>
    obtain rfl := List.length_eq_zero_iff.mp hlen
    obtain rfl : s.lineLevels = later := h
    simp [pollButtons]
  | cons p ps ih =>
    match ls, hlen with
    | l :: ls, hlen =>
      rw [pollButtons, pinRead_of_cons p h, ih (Nat.succ.inj hlen) rfl, List.append_assoc]
      rfl

-- THE REQUEST

/-- The state READ_BUTTONS leaves after reading the five lines at these levels, with these levels still to come and so many values drawn. -/
def afterReads (s : State) (u d l r e : Level) (levels : List Level) (draws : Nat) : State :=
  { s with
    trace := s.trace ++ [.read .btnUp u, .read .btnDown d, .read .btnLeft l, .read .btnRight r, .read .btnSelect e]
    responses := s.responses ++
      [.doneMask (lowMask .btnUp u ||| lowMask .btnDown d ||| lowMask .btnLeft l ||| lowMask .btnRight r ||| lowMask .btnSelect e)]
    lineLevels := levels
    draws := draws }

/-- READ_BUTTONS in READY, from what its poll comes to. -/
theorem exec_readButtons_of_poll {s : State} {u d l r e : Level} {levels : List Level} {draws : Nat} (hp : s.phase = .ready)
    (h : pollButtons buttonPins 0#5 s = ((buttonPins.zip [u, d, l, r, e]).foldl (fun m pl => addMask pl.1 pl.2 m) 0#5,
      { s with trace := s.trace ++ (buttonPins.zip [u, d, l, r, e]).map (fun pl => .read pl.1 pl.2), lineLevels := levels, draws := draws })) :
    exec .readButtons s = .next (afterReads s u d l r e levels draws) := by
  rw [exec, execReadButtons, whenReady_of_ready hp, h]
  simp only [buttonPins, List.zip_cons_cons, List.zip_nil_right, List.foldl_cons, List.foldl_nil, addMask_eq_or, BitVec.zero_or]
  rfl

-- THE STATEMENT

/-- Settles O40: a poll reads five levels, whichever they are, and those State lists where it lists five. -/
theorem readButtonsCompletes : Obligations.ReadButtonsCompletes := by
  refine fun s hp => ⟨?_, fun u d l r e later h => ?_⟩
  · obtain ⟨ls, levels, draws, hlen, hpoll⟩ := pollButtons_spec buttonPins 0#5 s
    match ls, hlen with
    | [u, d, l, r, e], _ =>
      exact ⟨u, d, l, r, e, afterReads s u d l r e levels draws, exec_readButtons_of_poll hp hpoll, rfl, rfl, rfl⟩
  · have hlisted : s.lineLevels = [u, d, l, r, e] ++ later := h
    exact exec_readButtons_of_poll hp (pollButtons_of_levels rfl hlisted 0#5)

end Sys2Proof.Machine
end

section
/-! PROOFS. FAULT refuses everything, and the reset input leaves it (60_exceptions.md R196; 70_reset_and_hazards.md R210). -/

namespace Sys2Proof.Machine

/-- Settles O10: a reset asserted now is the step, and it touches neither the history nor the ports. -/
theorem resetInputReturnsToUninit : Obligations.ResetInputReturnsToUninit := fun s h =>
  ⟨s.resetBlock, step_of_reset h, rfl, rfl, rfl, rfl, rfl, rfl, rfl, rfl, rfl⟩

/-- The block waits only with no unit held and no whole request on the port (R211). -/
theorem fetch_idle_cases {s : State} (h : fetch s = .idle) : s.microStep = none ∧ decodeRequest s.requests = .error .incomplete := by
  unfold fetch at h
  split at h
  · split at h <;> cases h
  · next hm =>
    split at h <;> cases h
    next hd => exact ⟨hm, hd⟩

/-- A step in FAULT with no reset asserted is refused, or waits (R196, R211). -/
theorem step_of_fault {s : State} (hp : s.phase = .fault) (hr : s.interruption ≠ some (.resetAfter 0)) :
    (∃ r, step s = .refused r) ∨ (step s = .next s ∧ s.microStep = none ∧ decodeRequest s.requests = .error .incomplete) := by
  rw [step_of_no_reset hr]
  cases hf : fetch s with
  | idle => exact .inr ⟨rfl, fetch_idle_cases hf⟩
  | refuse r => exact .inl ⟨r, rfl⟩
  | run i s' =>
    obtain ⟨hphase, -⟩ := fetch_keeps_phase hf
    have hrefused : exec i s' = .refused .inFault := exec_of_fault i (hphase.trans hp)
    exact .inl ⟨.inFault, by simp only [hrefused]⟩

/-- Settles O56: whatever a step fetches in FAULT is refused; a reset leaves UNINIT, where a good geometry is all that START asks for. -/
theorem faultIsSticky : Obligations.FaultIsSticky := fun s hp =>
  ⟨fun i => exec_of_fault i hp, step_of_fault hp, fun hr =>
    ⟨s.resetBlock, step_of_reset hr, rfl, rfl, rfl, rfl, fun _ _ hg => ⟨_, exec_start_of_uninit rfl hg⟩⟩⟩

end Sys2Proof.Machine
end

section
/-! PROOFS. The emitted rows as units of their own: the byte a row packs is its bit pattern (30_encoding.md R75 to R84), and FAULT refuses it (60_exceptions.md R196). -/

namespace Sys2Proof.Machine

open Sys2Proof.Safety

-- BIT PATTERNS

theorem entryModeByte_packEntry : ∀ i h, entryModeByte (packEntry i h) = 0b000001#6 ++ BitVec.ofBool i ++ BitVec.ofBool h := by decide

theorem displayControlByte_packDisplay :
    ∀ d c b, displayControlByte (packDisplay d c b) = 0b00001#5 ++ BitVec.ofBool d ++ BitVec.ofBool c ++ BitVec.ofBool b := by decide

theorem cursorShiftByte_eq_append : ∀ sc rl, cursorShiftByte sc rl = 0b0001#4 ++ BitVec.ofBool sc ++ BitVec.ofBool rl ++ 0b00#2 := by decide

theorem functionSetByte_packFunction :
    ∀ dl n f, functionSetByte (packFunction dl n f) = 0b001#3 ++ BitVec.ofBool dl ++ BitVec.ofBool n ++ BitVec.ofBool f ++ 0b00#2 := by decide

theorem initNibble_eq_append : ∀ n, initNibble n = 0b001#3 ++ BitVec.ofBool n := by decide

/-- A selector over zeros, with an address put into the zeros, is the selector in front of the address (R81, R82). -/
theorem append_zero_or_setWidth {m n : Nat} (selector : BitVec m) (addr : BitVec n) :
    (selector ++ 0#n) ||| addr.setWidth (m + n) = selector ++ addr := by
  rw [BitVec.setWidth_eq_append (Nat.le_add_left n m), BitVec.cast_append_left (by omega), BitVec.cast_ofNat, BitVec.or_append, BitVec.or_zero,
    BitVec.zero_or]

-- THE ROWS

/-- Outside FAULT an emitted row adds what it puts on the bus, and changes nothing else. -/
theorem exec_row_of_running {i : Instr} {s : State} {evs : List Event} (hr : i.isRequest = false) (hp : s.phase ≠ .fault) (h : rowEvents i = evs) :
    exec i s = .next { s with trace := s.trace ++ evs } := by
  rw [exec_row_eq hr, unlessFault_of_running hp, h]
  rfl

/-- A row that packs a byte sends the byte's bit pattern with RS Low. -/
theorem command_eq_traceC_of_eq {v w : Byte} (h : v = w) : command v = traceC w := h ▸ command_eq_traceC v

/-- Settles O43: each row by its bit pattern; FAULT refuses every instruction. -/
theorem emittedRowsComplete : Obligations.EmittedRowsComplete :=
  ⟨fun _ hp =>
    ⟨exec_row_of_running rfl hp (congrArg (· ++ [Event.wait .clear]) (command_eq_traceC clearByte)),
      exec_row_of_running rfl hp (congrArg (· ++ [Event.wait .clear]) (command_eq_traceC homeByte)),
      fun i h => exec_row_of_running rfl hp (command_eq_traceC_of_eq (entryModeByte_packEntry i h)),
      fun d c b => exec_row_of_running rfl hp (command_eq_traceC_of_eq (displayControlByte_packDisplay d c b)),
      fun sc rl => exec_row_of_running rfl hp (command_eq_traceC_of_eq (cursorShiftByte_eq_append sc rl)),
      fun dl n f => exec_row_of_running rfl hp (command_eq_traceC_of_eq (functionSetByte_packFunction dl n f)),
      fun addr => exec_row_of_running rfl hp (command_eq_traceC_of_eq (append_zero_or_setWidth 0b01#2 addr)),
      fun addr => exec_row_of_running rfl hp (command_eq_traceC_of_eq (append_zero_or_setWidth 0b1#1 addr)),
      fun v => exec_row_of_running rfl hp (data_eq_traceD v),
      fun n => exec_row_of_running rfl hp (congrArg traceNibble (initNibble_eq_append n))⟩,
    fun _ i hp _ => exec_of_fault i hp⟩

end Sys2Proof.Machine
end
